-- ==== Sys2Proof/Word.lean ====
section
/-! DEFINITION. The words the SD-2040's frames and tables are made of (spec 00 section 0.8, 08 R140): the types only. -/

namespace Sys2Proof

/-- One byte of a frame. -/
abbrev Byte := BitVec 8

/-- A radio ID: 24 bits; 0 and 0xFFFFFF are not valid radio IDs (00 section 0.8). -/
abbrev RadioId := BitVec 24

/-- A talkgroup ID: 16 bits; 0 is "no talkgroup", 65535 the all-call (00 section 0.8). -/
abbrev Talkgroup := BitVec 16

/-- A value of the epoch counter: 32 bits, wrapping (R15). -/
abbrev Epoch := BitVec 32

/-- A set of the sites 1..40 as the frames carry it: site n at bit n - 1 (R140, R153). -/
abbrev SiteSet := BitVec 40

/-- A table of records by number: (number, record) pairs in rising order of number. Its operations and its canonical form are in
Machine/Tab.lean (log 24). -/
abbrev Tab (α : Type) := List (Nat × α)

end Sys2Proof
end

