-- ==== Sys2Proof/Config.lean ====
section
/-! DEFINITION. What is fixed for the part: the capacities and identity the spec gives it. The SD-2040 leaves no value to an
implementation and no result undefined, so there is no free value here. -/

namespace Sys2Proof.Config

/-- Entry slots of the radio location table (R1). -/
abbrev radioSlots : Nat := 2048
/-- Repeater sites, numbered from 1 (R68). -/
abbrev siteCount : Nat := 40
/-- Rows of the group reach table (R105). -/
abbrev groupRows : Nat := 256
/-- Call records (R88). -/
abbrev callRecords : Nat := 48
/-- Slots of the buffer pool (R120). -/
abbrev poolSlots : Nat := 1536
/-- Free pool slots kept for control-class frames (R120). -/
abbrev poolReserve : Nat := 128
/-- Frames a control lane may hold (R122). -/
abbrev controlDepth : Nat := 16
/-- Frames the core queue may hold (R122). -/
abbrev coreDepth : Nat := 256
/-- Core queue places kept for management responses (R124). -/
abbrev coreReserve : Nat := 8
/-- Requests the management unit's request queue may hold (R141). -/
abbrev requestDepth : Nat := 4
/-- Candidate records of one entry (R3). -/
abbrev maxCandidates : Nat := 5
/-- Records of the class range table (R21). -/
abbrev rangeRecords : Nat := 16
/-- Epochs a failed target is left alone (R55). -/
abbrev failedEpochs : Nat := 8
/-- Items a batch may hold (R146). -/
abbrev batchItems : Nat := 16
/-- The part code in the answer to IDENTIFY (R143). -/
abbrev partCode : BitVec 16 := 0x2040
/-- The revision number in the answer to IDENTIFY (R143). -/
abbrev revision : Byte := 1

end Sys2Proof.Config
end

