-- ==== Sys2Proof/Syntax.lean ====
section
/-! DEFINITION. The commands: one constructor per row of spec/opcode_table.json. A row whose matter was handed over by another block
takes it from State and has no operand; a row that one of several timers, visits, sites or classes may give names which (log 1). -/

namespace Sys2Proof

/-- The two frame links (00 section 0.2). -/
inductive Port where
  | site
  | core
  deriving DecidableEq, Repr

/-- What ended the gathering of a frame's bytes (R135). -/
inductive FrameEnd where
  /-- the frame-end mark -/
  | endMark
  /-- a frame-start mark inside the frame -/
  | startMark
  /-- an idle symbol inside the frame -/
  | idle
  deriving DecidableEq, Repr

/-- The two ways a port loses sync (R134). -/
inductive SyncLossCause where
  /-- four invalid symbols with no clean run of 32 between any two -/
  | invalidSymbols
  /-- no signal for 1 ms -/
  | noSignal
  deriving DecidableEq, Repr

/-- The eight alert classes (R154). -/
inductive AlertClass where
  | siteStall
  | siteAlarm
  | emergency
  | tableFull
  | callTableFull
  | queueDrop
  | linkError
  | unknownTalkgroup
  deriving DecidableEq, Repr

/-- The commands of the SD-2040, in the order of the table. -/
inductive Instr where
  /-- POWER_ON_RESET (R152): the first release of the reset pin, with the strap level read at it. -/
  | powerOnReset (straps : BitVec 6)
  /-- PIN_RESET (R152): a later release of the reset pin, with the strap level read at it. -/
  | pinReset (straps : BitVec 6)
  /-- SYNC_GAINED (R134): the 64th valid symbol in a row, idle among them. -/
  | syncGained (port : Port)
  /-- SYNC_LOST (R134). -/
  | syncLost (port : Port) (cause : SyncLossCause)
  /-- FRAME_TOO_LONG (R135): the 263rd byte without an end mark. -/
  | frameTooLong (port : Port)
  /-- FRAME_RECEIVED (R136): the bytes gathered since the start mark, and what ended them. -/
  | frameReceived (port : Port) (bytes : List Byte) (ending : FrameEnd)
  /-- RECEPTION (R89): the vote unit takes the oldest copy handed to it. -/
  | reception
  /-- WINDOW_EXPIRY (R96) of a call record. -/
  | windowExpiry (record : Nat)
  /-- CALL_HANG_EXPIRY (R99) of a call record. -/
  | callHangExpiry (record : Nat)
  /-- STOP_VOTE_CLOSE (R102). -/
  | stopVoteClose
  /-- REPORT (R25): the location engine takes the oldest report handed to it. -/
  | report
  /-- REGISTRATION (R61): the location engine takes the oldest frame handed to it, a REGISTRATION. -/
  | registration
  /-- DIRECTIVE_ACK (R52): the location engine takes the oldest frame handed to it, a DIRECTIVE_ACK. -/
  | directiveAck
  /-- EPOCH_BOUNDARY (R15). -/
  | epochBoundary
  /-- AUDIT_VISIT (R18) of the entry in a slot. -/
  | auditVisit (slot : Nat)
  /-- SITE_LEFT_UP_ENTRY (R39): the entry in a slot takes the oldest site change report for it. -/
  | siteLeftUpEntry (slot : Nat)
  /-- SITE_REMOVED_ENTRY (R81): the entry in a slot takes the oldest site change report for it, a removal. -/
  | siteRemovedEntry (slot : Nat)
  /-- STOP_HANDOVER_END (R64) of the entry in a slot. -/
  | stopHandoverEnd (slot : Nat)
  /-- HEARTBEAT (R73): the site monitor takes the oldest heartbeat handed to it. -/
  | heartbeat
  /-- STALL_EXPIRY (R75) of a site. -/
  | stallExpiry (site : Nat)
  /-- SITE_UP_EGRESS (R74): the egress scheduler takes the report that a site became UP. -/
  | siteUpEgress (site : Nat)
  /-- SITE_CHANGE_REACH (R78): the reach unit takes the oldest site change report. -/
  | siteChangeReach
  /-- FLUSH (R130) of a site's lanes. -/
  | flush (site : Nat)
  /-- DOWNLINK (R111): the reach unit takes the oldest frame handed to it, a DOWNLINK. -/
  | downlink
  /-- RELAY (R117): the reach unit takes the oldest frame handed to it, a RELAY. -/
  | relay
  /-- SITE_TURN (R128). -/
  | siteTurn
  /-- SITE_TURN_SENT (R128). -/
  | siteTurnSent
  /-- CORE_TAKE (R129). -/
  | coreTake
  /-- CORE_FRAME_SENT (R129). -/
  | coreFrameSent
  /-- MGMT_REQUEST (R141): the oldest accepted request enters the request queue. -/
  | mgmtRequest
  /-- IDENTIFY (R143). This row and those up to CLEAR_EMERGENCY, and RESET, complete the request at the front of the queue. -/
  | identify
  /-- STATUS (R143). -/
  | status
  /-- READ_SITE (R86). -/
  | readSite
  /-- READ_CLASS (R144). -/
  | readClass
  /-- READ_RANGE (R144). -/
  | readRange
  /-- READ_GROUP (R118). -/
  | readGroup
  /-- READ_TIMING (R144). -/
  | readTiming
  /-- READ_RADIO (R24). -/
  | readRadio
  /-- READ_CALL (R104). -/
  | readCall
  /-- READ_COUNTERS (R157). -/
  | readCounters
  /-- WRITE_SITE (R70). -/
  | writeSite
  /-- ENABLE (R71): the admin action on a site's record. -/
  | enable (site : Nat)
  /-- BAR (R79): the admin action on a site's record. -/
  | bar (site : Nat)
  /-- REMOVE (R80): the admin action on a site's record. -/
  | remove (site : Nat)
  /-- WRITE_CLASS (R44). -/
  | writeClass
  /-- WRITE_RANGE (R22). -/
  | writeRange
  /-- WRITE_GROUP (R109). -/
  | writeGroup
  /-- WRITE_TIMING (R46). -/
  | writeTiming
  /-- BATCH (R146). -/
  | batch
  /-- BATCH_ITEM (R146): the next item of the batch in progress. -/
  | batchItem
  /-- START (R147). -/
  | start
  /-- STOP (R147). -/
  | stop
  /-- LOCK (R148). -/
  | lock
  /-- FLOOD_ON (R116). -/
  | floodOn
  /-- FLOOD_OFF (R116). -/
  | floodOff
  /-- ACK_ALERTS (R156). -/
  | ackAlerts
  /-- CLEAR_COUNTERS (R158). -/
  | clearCounters
  /-- FORCE_ROAM (R51). -/
  | forceRoam
  /-- EVICT (R12). -/
  | evict
  /-- CLEAR_EMERGENCY (R13). -/
  | clearEmergency
  /-- RESET (R151). -/
  | reset
  /-- ALERT_REPORT (R154): the management unit takes the oldest report of a class. -/
  | alertReport (cls : AlertClass)
  /-- INVALID_SYMBOL (R135): whether it fell inside a frame, and the valid symbols since the invalid symbol before it. -/
  | invalidSymbol (port : Port) (inFrame : Bool) (cleanRun : Nat)
  deriving DecidableEq, Repr

end Sys2Proof
end

