-- ==== Sys2Proof/WellFormed.lean ====
section
/-! DEFINITION. Which commands name something the part has: a site 1..40, a slot 0..2047, a call record 0..47, a frame that fits between
its marks. A command that is not well formed names nothing, and changes nothing the spec describes (log 2); a frame too long for its
marks is counted as one (log 29). -/

namespace Sys2Proof

/-- A site number the part has (00 section 0.8). -/
def validSite (site : Nat) : Bool := 1 ≤ site && site ≤ Config.siteCount

/-- The command names only sites, slots, records and frames that exist. -/
def Instr.wellFormed : Instr → Bool
  | .frameReceived _ bytes _ => bytes.length ≤ 262
  | .windowExpiry r | .callHangExpiry r => r < Config.callRecords
  | .auditVisit k | .siteLeftUpEntry k | .siteRemovedEntry k | .stopHandoverEnd k => k < Config.radioSlots
  | .stallExpiry x | .siteUpEgress x | .flush x | .enable x | .bar x | .remove x => validSite x
  | .powerOnReset _ | .pinReset _ | .syncGained _ | .syncLost _ _ | .frameTooLong _ | .reception | .stopVoteClose | .report
  | .registration | .directiveAck | .epochBoundary | .heartbeat | .siteChangeReach | .downlink | .relay | .siteTurn
  | .siteTurnSent | .coreTake | .coreFrameSent | .mgmtRequest | .identify | .status | .readSite | .readClass | .readRange
  | .readGroup | .readTiming | .readRadio | .readCall | .readCounters | .writeSite | .writeClass | .writeRange | .writeGroup
  | .writeTiming | .batch | .batchItem | .start | .stop | .lock | .floodOn | .floodOff | .ackAlerts | .clearCounters
  | .forceRoam | .evict | .clearEmergency | .reset | .alertReport _ | .invalidSymbol _ _ _ => true

end Sys2Proof
end

