-- ==== Sys2Proof/Decode.lean ====
section
/-! DEFINITION. The command a word spells by the bits of spec/opcode_table.json. The table gives no row any bits (its rows' "fields" are
empty and none has "fixed"), so no word spells a command. The frames on the links do have layouts: Machine/Frames.lean reads and
writes those. -/

namespace Sys2Proof

/-- No row of the table has bits, so no word of any width is a command. -/
def decodeTableWord (_nbits _w : Nat) : Option Instr := none

end Sys2Proof
end

