-- ==== Sys2Proof/Machine/Types.lean ====
section
/-! DEFINITION. The records the blocks keep and the frames they exchange, as data: field by field as the spec's tables list them. -/

namespace Sys2Proof.Machine

/-! ### The radio location table (chapter 1) -/

/-- The radio's kind for roaming purposes (00 section 0.7). -/
inductive RadioClass where
  | ground
  | vehicle
  | aircraft
  | command
  deriving DecidableEq, Repr

/-- The four states of an entry (R4). -/
inductive RadioState where
  | unattached
  | attached
  | moving
  | shadow
  deriving DecidableEq, Repr

/-- What started a handover (R49). -/
inductive Origin where
  | directed
  | forced
  deriving DecidableEq, Repr

/-- The handover record of a MOVING entry (R49). -/
structure Handover where
  target : Nat
  origin : Origin
  retries : Nat
  age : Nat
  accepted : Bool
  deriving DecidableEq, Repr

/-- The failed-target record (R2, R56): an abandoned target and the epochs remaining. -/
structure FailedTarget where
  site : Nat
  remaining : Nat
  deriving DecidableEq, Repr

/-- A candidate record (R3). -/
structure Candidate where
  site : Nat
  score : Nat
  scoreEpoch : Epoch
  heardEpoch : Epoch
  deriving DecidableEq, Repr

/-- A radio entry (R2, table 1-1). The candidate list keeps no order of its own; it is held in rising order of site. -/
structure Entry where
  radio : RadioId
  cls : RadioClass
  state : RadioState
  talkgroup : Talkgroup
  /-- the serving site, 0 when there is none -/
  serving : Nat
  /-- the handover number -/
  number : BitVec 8
  handover : Option Handover
  dwell : Nat
  shadow : Nat
  failed : Option FailedTarget
  emergency : Bool
  cands : List Candidate
  deriving DecidableEq, Repr

/-- A record of the class range table (R21). -/
structure ClassRange where
  first : RadioId
  last : RadioId
  cls : RadioClass
  valid : Bool
  deriving DecidableEq, Repr

/-- A record of the class policy table (R43). -/
structure ClassPolicy where
  weight : Nat
  decay : Nat
  hysteresis : Nat
  dwell : Nat
  floor : Nat
  shadowHold : Nat
  lostLimit : Nat
  roamTimeout : Nat
  retryLimit : Nat
  deriving DecidableEq, Repr

/-- The class policy table: one record per class (R43). -/
structure ClassTable where
  ground : ClassPolicy
  vehicle : ClassPolicy
  aircraft : ClassPolicy
  command : ClassPolicy
  deriving DecidableEq, Repr

/-- The global timing record (R45). -/
structure Timing where
  epochAdjust : Nat
  /-- in ms -/
  voteHold : Nat
  /-- in steps of 250 ms -/
  callHang : Nat
  staleLimit : Nat
  purgeLimit : Nat
  deriving DecidableEq, Repr

/-! ### The site table (chapter 4) -/

/-- The five site states (R72). -/
inductive SiteState where
  | off
  | waiting
  | up
  | stalled
  | barred
  deriving DecidableEq, Repr

/-- The configured fields of a site record (R68). -/
structure SiteConfig where
  offset : Int
  bias : Int
  roamInLimit : Nat
  stallLimit : Nat
  recoveryCount : Nat
  initialCredit : Nat
  releaseThreshold : Nat
  voiceDepth : Nat
  deriving DecidableEq, Repr

/-- A site record: the configured fields and what the site monitor keeps of the read-only ones (R69). The stall deadline is the last
heartbeat time plus the stall limit (R75), and is not held apart. -/
structure SiteRecord where
  cfg : SiteConfig
  state : SiteState
  lastHeartbeat : Option Nat
  interval : Nat
  /-- the recovery run -/
  run : Nat
  alarm : Bool
  stall : Bool
  deriving DecidableEq, Repr

/-- The actions of a SITE write's admin field (R71). -/
inductive AdminAction where
  | keep
  | enable
  | bar
  | remove
  deriving DecidableEq, Repr

/-- A HEARTBEAT frame (table 8-6). -/
structure Heartbeat where
  site : Nat
  credits : Nat
  alarm : Bool
  deriving DecidableEq, Repr

/-! ### Calls (chapter 5) -/

/-- The call types (table 8-5). -/
inductive CallType where
  | group
  | individual
  | all
  | ping
  deriving DecidableEq, Repr

/-- One copy of a burst: a RECEPTION frame (table 8-6). -/
structure Copy where
  site : Nat
  radio : RadioId
  callType : CallType
  dest : BitVec 24
  tag : BitVec 8
  seq : BitVec 8
  /-- raw quality, 255 for NO_DECODE -/
  quality : Nat
  endFlag : Bool
  emergency : Bool
  payload : List Byte
  deriving DecidableEq, Repr

/-- The best copy of a vote window (R88). -/
structure BestCopy where
  site : Nat
  quality : Nat
  payload : List Byte
  deriving DecidableEq, Repr

/-- A call record in use (R88, table 5-1). -/
structure CallRecord where
  radio : RadioId
  tag : BitVec 8
  callType : CallType
  dest : BitVec 24
  seq : BitVec 8
  isOpen : Bool
  deadline : Nat
  best : Option BestCopy
  copies : Nat
  endSeen : Bool
  emergencySeen : Bool
  lastActivity : Nat
  hangDeadline : Nat
  deriving DecidableEq, Repr

/-! ### What the location engine is handed -/

/-- A reception report (R89): one copy as the location engine scores it. -/
structure Report where
  radio : RadioId
  site : Nat
  quality : Nat
  emergency : Bool
  deriving DecidableEq, Repr

/-- The registration reasons (table 8-5). -/
inductive RegReason where
  | powerOn
  | siteChange
  | groupChange
  | powerOff
  deriving DecidableEq, Repr

/-- A REGISTRATION frame (table 8-6), its talkgroup as read (65535 read as 0). -/
structure Registration where
  site : Nat
  radio : RadioId
  talkgroup : Talkgroup
  quality : Nat
  reason : RegReason
  deriving DecidableEq, Repr

/-- A DIRECTIVE_ACK frame (table 8-6); `accept` tells ACCEPT from BUSY. -/
structure DirectiveAck where
  site : Nat
  radio : RadioId
  number : BitVec 8
  accept : Bool
  deriving DecidableEq, Repr

/-- The frames the classifier hands to the location engine. -/
inductive LocationFrame where
  | registration (r : Registration)
  | ack (a : DirectiveAck)
  deriving DecidableEq, Repr

/-- What the site monitor reports of a site to an entry (R72, R80). -/
inductive SiteNews where
  | leftUp
  | removed
  deriving DecidableEq, Repr

/-- A site change report not yet taken by the entry in a slot. -/
structure EntryReport where
  slot : Nat
  site : Nat
  news : SiteNews
  deriving DecidableEq, Repr

/-! ### Frames the part sends -/

/-- The directive kinds (R47). -/
inductive DirectiveKind where
  | serve
  | move
  | release
  | cancel
  | refuse
  deriving DecidableEq, Repr

/-- A DIRECTIVE frame (table 8-7); `tableFull` tells reason TABLE_FULL from NONE. -/
structure Directive where
  site : Nat
  kind : DirectiveKind
  radio : RadioId
  talkgroup : Talkgroup
  other : Nat
  number : BitVec 8
  tableFull : Bool
  deriving DecidableEq, Repr

/-- A RELAY frame (R117). -/
structure Relay where
  site : Nat
  body : List Byte
  deriving DecidableEq, Repr

/-- A frame of a control lane (R122). -/
inductive ControlFrame where
  | directive (d : Directive)
  | relay (r : Relay)
  deriving DecidableEq, Repr

/-- A DOWNLINK frame from the core port, but for the site field, which is not read (R111). -/
structure Downlink where
  callType : CallType
  dest : BitVec 24
  tag : BitVec 8
  seq : BitVec 8
  endFlag : Bool
  payload : List Byte
  deriving DecidableEq, Repr

/-- One copy of a downlink burst, with its site (R111 step 4): a frame of a voice lane. -/
structure DownlinkCopy where
  site : Nat
  burst : Downlink
  deriving DecidableEq, Repr

/-- An UPLINK frame (R100). -/
structure Uplink where
  site : Nat
  radio : RadioId
  callType : CallType
  dest : BitVec 24
  tag : BitVec 8
  seq : BitVec 8
  quality : Nat
  copies : Nat
  endFlag : Bool
  emergency : Bool
  unvoted : Bool
  payload : List Byte
  deriving DecidableEq, Repr

/-- The notice kinds (table 8-5). -/
inductive NoticeKind where
  | roam
  | roamFailed
  | shadow
  | recovered
  | lost
  | emergency
  | deregister
  | refused
  deriving DecidableEq, Repr

/-- The notice causes (table 8-5). -/
inductive NoticeCause where
  | none
  | register
  | self
  | directed
  | forced
  deriving DecidableEq, Repr

/-- A NOTICE frame (table 8-8). -/
structure Notice where
  kind : NoticeKind
  radio : RadioId
  fromSite : Nat
  toSite : Nat
  talkgroup : Talkgroup
  cause : NoticeCause
  epoch : Epoch
  deriving DecidableEq, Repr

/-- An ALERT frame (R155). -/
structure Alert where
  cls : AlertClass
  flags : BitVec 8
  stalls : SiteSet
  epoch : Epoch
  deriving DecidableEq, Repr

/-- The result codes (table 8-5). -/
inductive Result where
  | ok
  | badTable
  | badKey
  | badValue
  | locked
  | batchActive
  | notFound
  | inUse
  | wrongState
  | noRoom
  deriving DecidableEq, Repr

/-- A MGMT_RESPONSE frame (R141). -/
structure Response where
  tag : BitVec 16
  result : Result
  body : List Byte
  deriving DecidableEq, Repr

/-- A frame of the core queue (R122). -/
inductive CoreFrame where
  | uplink (u : Uplink)
  | notice (n : Notice)
  | alert (a : Alert)
  | response (r : Response)
  deriving DecidableEq, Repr

/-! ### Reach unit and egress scheduler (chapters 6 and 7) -/

/-- The static fields of a group row (R105). -/
structure GroupRow where
  talkgroup : Talkgroup
  pinned : SiteSet
  flood : Bool
  valid : Bool
  deriving DecidableEq, Repr

/-- The frames the classifier hands to the reach unit. -/
inductive ReachFrame where
  | downlink (d : Downlink)
  | relay (r : Relay)
  deriving DecidableEq, Repr

/-- A site change report to the reach unit: a site entered or left UP (R72). -/
structure SiteChange where
  site : Nat
  up : Bool
  deriving DecidableEq, Repr

/-- What the site monitor tells the egress scheduler of a site: it became UP (R74), or its lanes are to be flushed (R130). -/
inductive EgressNews where
  | up
  | flush
  deriving DecidableEq, Repr

/-- A report of the site monitor not yet taken by the egress scheduler. -/
structure EgressReport where
  site : Nat
  news : EgressNews
  deriving DecidableEq, Repr

/-- A turn being sent on the site port: its site and its frames as they go out on the line (R128). -/
structure SiteTurn where
  site : Nat
  frames : List (List Byte)
  deriving DecidableEq, Repr

/-- What became of a frame offered to a queue (R123 to R125). -/
inductive Offer where
  | admitted
  /-- check 1 of R123: the site is BARRED or OFF -/
  | noSite
  /-- check 2 or 3 of R123, or a check of R124 -/
  | noRoom
  deriving DecidableEq, Repr

/-! ### Management unit (chapters 9 and 10) -/

/-- The run state (R147). -/
inductive RunState where
  | load
  | run
  deriving DecidableEq, Repr

/-- The request kinds (table 8-5). -/
inductive RequestKind where
  | identify
  | status
  | read
  | write
  | batch
  | control
  | ackAlerts
  | clearCounters
  | radioAction
  | reset
  deriving DecidableEq, Repr

/-- A MGMT_REQUEST frame: its tag, kind and body (table 8-8). -/
structure Request where
  tag : BitVec 16
  kind : RequestKind
  body : List Byte
  deriving DecidableEq, Repr

/-- The batch in progress (R146): its tag, its number of items, the number applied, and the items still to come. -/
structure Batch where
  tag : BitVec 16
  items : Nat
  applied : Nat
  rest : List (List Byte)
  deriving DecidableEq, Repr

/-- The reset-cause flags (R150). -/
structure ResetCauses where
  powerOn : Bool
  pin : Bool
  command : Bool
  deriving DecidableEq, Repr

/-- The three kinds of reset (R150). -/
inductive ResetKind where
  | powerOn
  | pin
  | command
  deriving DecidableEq, Repr

/-- A block's report to the management unit (R154): a condition's new value, or (with `value` true) an event. -/
structure AlertReport where
  cls : AlertClass
  value : Bool
  deriving DecidableEq, Repr

/-- A counter and its wrap flag (R157). -/
structure Counter where
  value : BitVec 32
  wrapped : Bool
  deriving DecidableEq, Repr

/-- The global counters, in the order of table 10-2. -/
inductive GlobalCounter where
  | untrackedReports
  | refusedRegistrations
  | evictions
  | purgedEntries
  | staleAcks
  | unvotedCopies
  | votedBursts
  | burstsLost
  | downlinksDiscarded
  | unreachedBursts
  | downlinksReplicated
  | downlinkCopies
  | individualFloods
  | relaysDiscarded
  | coreQueueDrops
  | coreFramesSent
  | requestOverflows
  deriving DecidableEq, Repr

/-- The counters of each site, in the order of table 10-2. -/
inductive SiteCounter where
  | lateCopies
  | directiveDrops
  | queueDrops
  | framesSent
  | heartbeats
  | stalls
  | recoveries
  deriving DecidableEq, Repr

/-- The counters of each port, in the order of table 10-2. -/
inductive PortCounter where
  | framesAccepted
  | crcErrors
  | lengthErrors
  | kindErrors
  | formatErrors
  | invalidRadio
  | unknownSite
  | barredSite
  | otherUnit
  | syncLosses
  deriving DecidableEq, Repr

/-- Every counter of the part (R157). -/
inductive CounterId where
  | global (c : GlobalCounter)
  | site (site : Nat) (c : SiteCounter)
  | port (port : Port) (c : PortCounter)
  deriving DecidableEq, Repr

/-- An accepted frame, read (table 8-4). -/
inductive ReceivedFrame where
  | reception (c : Copy)
  | registration (r : Registration)
  | heartbeat (h : Heartbeat)
  | ack (a : DirectiveAck)
  | downlink (d : Downlink)
  | relay (r : Relay)
  | request (r : Request)
  deriving DecidableEq, Repr

end Sys2Proof.Machine
end

