-- ==== Sys2Proof/Machine/Frames.lean ====
section
/-! DEFINITION. Frames as bytes: the CRC (R133), the layouts of what is received and sent (R140), and the checks on a received frame
that need no state (R135, R136). -/

namespace Sys2Proof.Machine

/-! ### Numbers as bytes, most significant byte first (R140) -/

/-- The low byte of a number. -/
def byte (n : Nat) : Byte := BitVec.ofNat 8 n

/-- A number in two bytes. -/
def bytes2 (n : Nat) : List Byte := [byte (n / 256), byte n]

/-- A number in three bytes. -/
def bytes3 (n : Nat) : List Byte := [byte (n / 65536), byte (n / 256), byte n]

/-- A number in four bytes. -/
def bytes4 (n : Nat) : List Byte := [byte (n / 16777216), byte (n / 65536), byte (n / 256), byte n]

/-- The number that bytes spell, most significant first. -/
def numberOf (bs : List Byte) : Nat := bs.foldl (fun n b => n * 256 + b.toNat) 0

/-- A radio ID or destination from its three bytes. -/
def word24 (b2 b1 b0 : Byte) : BitVec 24 := BitVec.ofNat 24 (numberOf [b2, b1, b0])

/-- A talkgroup or tag from its two bytes. -/
def word16 (b1 b0 : Byte) : BitVec 16 := BitVec.ofNat 16 (numberOf [b1, b0])

/-- A set of sites from its five bytes: site n at bit (n - 1) mod 8 of byte (n - 1) div 8 (R140, R153). -/
def siteSetOf (b0 b1 b2 b3 b4 : Byte) : SiteSet := BitVec.ofNat 40 (numberOf [b4, b3, b2, b1, b0])

/-- The five bytes of a set of sites. -/
def siteSetBytes (s : SiteSet) : List Byte :=
  [byte s.toNat, byte (s.toNat / 256), byte (s.toNat / 65536), byte (s.toNat / 16777216), byte (s.toNat / 4294967296)]

/-- Site n (1..40) is in the set. -/
def inSet (s : SiteSet) (site : Nat) : Bool := site != 0 && s.getLsbD (site - 1)

/-- The set of the sites 1..40 that meet a test. -/
def siteSet (p : Nat → Bool) : SiteSet :=
  (List.range Config.siteCount).foldl (fun s i => if p (i + 1) then s ||| (1#40 <<< i) else s) 0

/-- Flag bits as a byte, bit 0 first. -/
def flagByte (bits : List Bool) : Byte := (bits.zipIdx).foldl (fun b p => if p.1 then b ||| (1#8 <<< p.2) else b) 0

/-! ### The CRC (R133) -/

/-- One shift of the CRC register toward its least significant bit. Register bit 0 is the coefficient of x^31, so the generator reads
0xEDB88320. -/
def crcShift (r : BitVec 32) : BitVec 32 := if r.getLsbD 0 then (r >>> 1) ^^^ 0xEDB88320#32 else r >>> 1

/-- The register after one byte, bit 0 first. -/
def crcByte (r : BitVec 32) (b : Byte) : BitVec 32 :=
  crcShift (crcShift (crcShift (crcShift (crcShift (crcShift (crcShift (crcShift (r ^^^ b.setWidth 32))))))))

/-- The CRC value of the bytes: preset to ones, inverted at the end. -/
def crcValue (bs : List Byte) : BitVec 32 := ~~~ (bs.foldl crcByte 0xFFFFFFFF#32)

/-- The four trailer bytes: lowest-order register bits first. -/
def crcTrailer (bs : List Byte) : List Byte :=
  let v := (crcValue bs).toNat
  [byte v, byte (v / 256), byte (v / 65536), byte (v / 16777216)]

/-- The bytes of a frame between its marks (table 8-1). -/
def frameBytes (kind unit : Byte) (body : List Byte) : List Byte :=
  let head := kind :: unit :: byte body.length :: body
  head ++ crcTrailer head

/-! ### Codes (table 8-5) -/

/-- Call type codes. -/
def CallType.ofCode : Nat → Option CallType
  | 0 => some .group
  | 1 => some .individual
  | 2 => some .all
  | 3 => some .ping
  | _ => none

/-- Call type codes. -/
def CallType.code : CallType → Byte
  | .group => 0
  | .individual => 1
  | .all => 2
  | .ping => 3

/-- Registration reason codes. -/
def RegReason.ofCode : Nat → Option RegReason
  | 0 => some .powerOn
  | 1 => some .siteChange
  | 2 => some .groupChange
  | 3 => some .powerOff
  | _ => none

/-- Ack result codes: 0 ACCEPT, 1 BUSY; the answer says whether it is ACCEPT. -/
def ackAccept : Nat → Option Bool
  | 0 => some true
  | 1 => some false
  | _ => none

/-- Directive kind codes. -/
def DirectiveKind.code : DirectiveKind → Byte
  | .serve => 1
  | .move => 2
  | .release => 3
  | .cancel => 4
  | .refuse => 5

/-- Notice kind codes. -/
def NoticeKind.code : NoticeKind → Byte
  | .roam => 1
  | .roamFailed => 2
  | .shadow => 3
  | .recovered => 4
  | .lost => 5
  | .emergency => 6
  | .deregister => 7
  | .refused => 8

/-- Notice cause codes. -/
def NoticeCause.code : NoticeCause → Byte
  | .none => 0
  | .register => 1
  | .self => 2
  | .directed => 3
  | .forced => 4

/-- Request kind codes. -/
def RequestKind.ofCode : Nat → Option RequestKind
  | 1 => some .identify
  | 2 => some .status
  | 3 => some .read
  | 4 => some .write
  | 5 => some .batch
  | 6 => some .control
  | 7 => some .ackAlerts
  | 8 => some .clearCounters
  | 9 => some .radioAction
  | 10 => some .reset
  | _ => none

/-- Result codes. -/
def Result.code : Result → Byte
  | .ok => 0
  | .badTable => 1
  | .badKey => 2
  | .badValue => 3
  | .locked => 4
  | .batchActive => 5
  | .notFound => 6
  | .inUse => 7
  | .wrongState => 8
  | .noRoom => 9

/-- Alert class codes, 1 to 8. -/
def alertCode : AlertClass → Nat
  | .siteStall => 1
  | .siteAlarm => 2
  | .emergency => 3
  | .tableFull => 4
  | .callTableFull => 5
  | .queueDrop => 6
  | .linkError => 7
  | .unknownTalkgroup => 8

/-! ### Frames sent -/

/-- The body of a DIRECTIVE (table 8-7). -/
def Directive.encode (d : Directive) : List Byte :=
  [byte d.site, d.kind.code] ++ bytes3 d.radio.toNat ++ bytes2 d.talkgroup.toNat ++ [byte d.other, d.number, flagByte [d.tableFull]]

/-- The body of a RELAY (R140): site, body length, body, unchanged from its receipt. -/
def Relay.encode (r : Relay) : List Byte := [byte r.site, byte r.body.length] ++ r.body

/-- The body of a DOWNLINK copy (table 8-7): the copy's site, and the burst as received. -/
def DownlinkCopy.encode (d : DownlinkCopy) : List Byte :=
  [byte d.site, d.burst.callType.code] ++ bytes3 d.burst.dest.toNat ++
    [d.burst.tag, d.burst.seq, flagByte [d.burst.endFlag], byte d.burst.payload.length] ++ d.burst.payload

/-- The body of an UPLINK (table 8-8). -/
def Uplink.encode (u : Uplink) : List Byte :=
  [byte u.site] ++ bytes3 u.radio.toNat ++ [u.callType.code] ++ bytes3 u.dest.toNat ++
    [u.tag, u.seq, byte u.quality, byte u.copies, flagByte [u.endFlag, u.emergency, u.unvoted], byte u.payload.length] ++ u.payload

/-- The body of a NOTICE (table 8-8). -/
def Notice.encode (n : Notice) : List Byte :=
  [n.kind.code] ++ bytes3 n.radio.toNat ++ [byte n.fromSite, byte n.toSite] ++ bytes2 n.talkgroup.toNat ++ [n.cause.code] ++
    bytes4 n.epoch.toNat

/-- The body of an ALERT (table 8-8). -/
def Alert.encode (a : Alert) : List Byte :=
  [byte (alertCode a.cls), a.flags] ++ siteSetBytes a.stalls ++ bytes4 a.epoch.toNat

/-- The body of a MGMT_RESPONSE (table 8-8). -/
def Response.encode (r : Response) : List Byte :=
  bytes2 r.tag.toNat ++ [r.result.code, byte r.body.length] ++ r.body

/-- A control lane's frame as it goes out, with the part's unit number (R133, R139). -/
def ControlFrame.bytes (unit : BitVec 6) : ControlFrame → List Byte
  | .directive d => frameBytes 0x21 (unit.setWidth 8) d.encode
  | .relay r => frameBytes 0x23 (unit.setWidth 8) r.encode

/-- A voice lane's frame as it goes out. -/
def DownlinkCopy.bytes (unit : BitVec 6) (d : DownlinkCopy) : List Byte := frameBytes 0x22 (unit.setWidth 8) d.encode

/-- A core queue frame as it goes out. -/
def CoreFrame.bytes (unit : BitVec 6) : CoreFrame → List Byte
  | .uplink u => frameBytes 0x31 (unit.setWidth 8) u.encode
  | .notice n => frameBytes 0x32 (unit.setWidth 8) n.encode
  | .alert a => frameBytes 0x33 (unit.setWidth 8) a.encode
  | .response r => frameBytes 0x42 (unit.setWidth 8) r.encode

/-! ### Frames received -/

/-- A destination as a RECEPTION gives it: a GROUP or ALL destination is its low 16 bits (R136, R140; log 11). -/
def uplinkDest (t : CallType) (d : BitVec 24) : BitVec 24 :=
  match t with
  | .group | .all => d &&& 0xFFFF#24
  | .individual | .ping => d

/-- A talkgroup as a REGISTRATION gives it: 65535 is read as 0 (R140, R62; log 12). -/
def registeredTalkgroup (g : Talkgroup) : Talkgroup := if g = 0xFFFF then 0 else g

/-- RECEPTION (table 8-6), its format checked. -/
def parseReception : List Byte → Option ReceivedFrame
  | site :: r2 :: r1 :: r0 :: ct :: d2 :: d1 :: d0 :: tag :: seq :: q :: fl :: len :: payload =>
    match CallType.ofCode ct.toNat with
    | some t =>
      if payload.length = len.toNat ∧ len.toNat ≤ 64 then
        some (.reception
          { site := site.toNat, radio := word24 r2 r1 r0, callType := t, dest := uplinkDest t (word24 d2 d1 d0), tag := tag
            seq := seq, quality := q.toNat, endFlag := fl.getLsbD 0, emergency := fl.getLsbD 1, payload := payload })
      else none
    | none => none
  | _ => none

/-- REGISTRATION (table 8-6), its format checked. -/
def parseRegistration : List Byte → Option ReceivedFrame
  | [site, r2, r1, r0, g1, g0, q, reason] =>
    (RegReason.ofCode reason.toNat).map fun w =>
      .registration
        { site := site.toNat, radio := word24 r2 r1 r0, talkgroup := registeredTalkgroup (word16 g1 g0), quality := q.toNat
          reason := w }
  | _ => none

/-- HEARTBEAT (table 8-6), its format checked. -/
def parseHeartbeat : List Byte → Option ReceivedFrame
  | [site, credits, fl] => some (.heartbeat { site := site.toNat, credits := credits.toNat, alarm := fl.getLsbD 0 })
  | _ => none

/-- DIRECTIVE_ACK (table 8-6), its format checked. -/
def parseAck : List Byte → Option ReceivedFrame
  | [site, r2, r1, r0, number, result] =>
    (ackAccept result.toNat).map fun a =>
      .ack { site := site.toNat, radio := word24 r2 r1 r0, number := number, accept := a }
  | _ => none

/-- DOWNLINK (table 8-7), its format checked; the site field is not read. -/
def parseDownlink : List Byte → Option ReceivedFrame
  | _ :: ct :: d2 :: d1 :: d0 :: tag :: seq :: fl :: len :: payload =>
    match CallType.ofCode ct.toNat with
    | some t =>
      if payload.length = len.toNat ∧ len.toNat ≤ 64 then
        some (.downlink
          { callType := t, dest := word24 d2 d1 d0, tag := tag, seq := seq, endFlag := fl.getLsbD 0, payload := payload })
      else none
    | none => none
  | _ => none

/-- RELAY (R140), its format checked. -/
def parseRelay : List Byte → Option ReceivedFrame
  | site :: len :: body =>
    if body.length = len.toNat ∧ len.toNat ≤ 64 then some (.relay { site := site.toNat, body := body }) else none
  | _ => none

/-- MGMT_REQUEST (table 8-8), its format checked. -/
def parseRequest : List Byte → Option ReceivedFrame
  | t1 :: t0 :: kind :: len :: body =>
    match RequestKind.ofCode kind.toNat with
    | some k =>
      if body.length = len.toNat ∧ len.toNat ≤ 240 then some (.request { tag := word16 t1 t0, kind := k, body := body }) else none
    | none => none
  | _ => none

/-- The reading of a body by its kind code and port (table 8-4); none when the port does not receive the kind. -/
def kindParser (p : Port) (kind : Nat) : Option (List Byte → Option ReceivedFrame) :=
  match p, kind with
  | .site, 0x11 => some parseReception
  | .site, 0x12 => some parseRegistration
  | .site, 0x13 => some parseHeartbeat
  | .site, 0x14 => some parseAck
  | .core, 0x22 => some parseDownlink
  | .core, 0x23 => some parseRelay
  | .core, 0x41 => some parseRequest
  | _, _ => none

/-- A frame between its marks, checked for framing (R135), CRC, kind and format (R136, checks 1 to 3): the unit byte and the frame
read, or the counter of the first check that fails. -/
def readFrame (p : Port) (bytes : List Byte) (ending : FrameEnd) : Except PortCounter (Byte × ReceivedFrame) :=
  if ending ≠ .endMark then .error .lengthErrors
  else if 262 < bytes.length then .error .lengthErrors
  else
    match bytes with
    | kind :: unit :: len :: rest =>
      if rest.length ≠ len.toNat + 4 then .error .lengthErrors
      else
        let body := rest.take len.toNat
        if rest.drop len.toNat ≠ crcTrailer (kind :: unit :: len :: body) then .error .crcErrors
        else
          match kindParser p kind.toNat with
          | none => .error .kindErrors
          | some parse =>
            match parse body with
            | none => .error .formatErrors
            | some f => .ok (unit, f)
    | _ => .error .lengthErrors

/-! ### Frames as their senders lay them out (R140) -/

/-- The reason code of a registration (table 8-5). -/
def RegReason.code : RegReason → Byte
  | .powerOn => 0
  | .siteChange => 1
  | .groupChange => 2
  | .powerOff => 3

/-- The code of a request kind (table 8-5). -/
def RequestKind.code : RequestKind → Byte
  | .identify => 1
  | .status => 2
  | .read => 3
  | .write => 4
  | .batch => 5
  | .control => 6
  | .ackAlerts => 7
  | .clearCounters => 8
  | .radioAction => 9
  | .reset => 10

/-- The port a frame comes on (table 8-4). -/
def ReceivedFrame.port : ReceivedFrame → Port
  | .reception _ | .registration _ | .heartbeat _ | .ack _ => .site
  | .downlink _ | .relay _ | .request _ => .core

/-- The kind code of a frame (table 8-4). -/
def ReceivedFrame.kindCode : ReceivedFrame → Byte
  | .reception _ => 0x11
  | .registration _ => 0x12
  | .heartbeat _ => 0x13
  | .ack _ => 0x14
  | .downlink _ => 0x22
  | .relay _ => 0x23
  | .request _ => 0x41

/-- The body of a frame as its sender lays it out (tables 8-6 to 8-8), unused flag bits and a DOWNLINK's site 0. -/
def ReceivedFrame.body : ReceivedFrame → List Byte
  | .reception c =>
    [byte c.site] ++ bytes3 c.radio.toNat ++ [c.callType.code] ++ bytes3 c.dest.toNat ++
      [c.tag, c.seq, byte c.quality, flagByte [c.endFlag, c.emergency], byte c.payload.length] ++ c.payload
  | .registration r =>
    [byte r.site] ++ bytes3 r.radio.toNat ++ bytes2 r.talkgroup.toNat ++ [byte r.quality, r.reason.code]
  | .heartbeat h => [byte h.site, byte h.credits, flagByte [h.alarm]]
  | .ack a => [byte a.site] ++ bytes3 a.radio.toNat ++ [a.number, if a.accept then 0 else 1]
  | .downlink d =>
    [0, d.callType.code] ++ bytes3 d.dest.toNat ++ [d.tag, d.seq, flagByte [d.endFlag], byte d.payload.length] ++ d.payload
  | .relay r => [byte r.site, byte r.body.length] ++ r.body
  | .request r => bytes2 r.tag.toNat ++ [r.kind.code, byte r.body.length] ++ r.body

/-- The fields of a frame fit their places in its layout, with a GROUP or ALL destination in 16 bits and no talkgroup 65535 in a
registration, which its reader takes as 0. -/
def ReceivedFrame.fits : ReceivedFrame → Bool
  | .reception c =>
    decide (c.site < 256) && decide (c.quality < 256) && decide (c.payload.length ≤ 64) && uplinkDest c.callType c.dest == c.dest
  | .registration r => decide (r.site < 256) && decide (r.quality < 256) && r.talkgroup != 0xFFFF
  | .heartbeat h => decide (h.site < 256) && decide (h.credits < 256)
  | .ack a => decide (a.site < 256)
  | .downlink d => decide (d.payload.length ≤ 64)
  | .relay r => decide (r.site < 256) && decide (r.body.length ≤ 64)
  | .request r => decide (r.body.length ≤ 240)

/-- The radio of a frame whose radio field is checked (R136, check 4). -/
def ReceivedFrame.radio? : ReceivedFrame → Option RadioId
  | .reception c => some c.radio
  | .registration r => some r.radio
  | .ack a => some a.radio
  | .heartbeat _ | .downlink _ | .relay _ | .request _ => none

/-- The site of a frame whose site field is checked (R137). -/
def ReceivedFrame.site? : ReceivedFrame → Option Nat
  | .reception c => some c.site
  | .registration r => some r.site
  | .ack a => some a.site
  | .heartbeat h => some h.site
  | .relay r => some r.site
  | .downlink _ | .request _ => none

/-- A radio ID that names a radio (00 section 0.8). -/
def validRadio (r : RadioId) : Bool := r != 0 && r != 0xFFFFFF

end Sys2Proof.Machine
end

