-- ==== Sys2Proof/Machine/Defaults.lean ====
section
/-! DEFINITION. The values the spec gives configured records at power-on, and what an unlisted record of each table reads as. -/

namespace Sys2Proof.Machine

/-- Defaults of table 4-1 (R68). -/
def SiteConfig.default : SiteConfig :=
  { offset := 0, bias := 0, roamInLimit := 2048, stallLimit := 3000, recoveryCount := 3, initialCredit := 16, releaseThreshold := 4
    voiceDepth := 32 }

/-- A site record at power-on (R87). -/
def SiteRecord.default : SiteRecord :=
  { cfg := SiteConfig.default, state := .off, lastHeartbeat := none, interval := 0, run := 0, alarm := false, stall := false }

/-- Class policy defaults (R43, table 2-4). -/
def ClassTable.default : ClassTable :=
  { ground :=
      { weight := 4, decay := 8, hysteresis := 64, dwell := 4, floor := 160, shadowHold := 6, lostLimit := 40, roamTimeout := 4
        retryLimit := 2 }
    vehicle :=
      { weight := 6, decay := 12, hysteresis := 48, dwell := 3, floor := 160, shadowHold := 4, lostLimit := 40, roamTimeout := 4
        retryLimit := 2 }
    aircraft :=
      { weight := 8, decay := 24, hysteresis := 128, dwell := 6, floor := 240, shadowHold := 3, lostLimit := 20, roamTimeout := 3
        retryLimit := 1 }
    command :=
      { weight := 4, decay := 8, hysteresis := 48, dwell := 2, floor := 128, shadowHold := 6, lostLimit := 120, roamTimeout := 4
        retryLimit := 3 } }

/-- Timing defaults (R45, table 2-5). -/
def Timing.default : Timing := { epochAdjust := 25, voteHold := 60, callHang := 8, staleLimit := 20, purgeLimit := 240 }

/-- A class range record at power-on (R23). -/
def ClassRange.default : ClassRange := { first := 1, last := 1, cls := .ground, valid := false }

/-- A group row that is not valid after a reset (R119). -/
def GroupRow.default : GroupRow := { talkgroup := 0, pinned := 0, flood := false, valid := false }

/-- A counter after a reset (R157, R159). -/
def Counter.zero : Counter := { value := 0, wrapped := false }

end Sys2Proof.Machine
end

