-- ==== Sys2Proof/Machine/Tab.lean ====
section
/-! DEFINITION. Tables of records by number, kept in one canonical form: keys strictly rising, and, for a table whose every number has
a record (a site, a row, a counter), no listed record equal to what an unlisted number reads as (log 24). -/

namespace Sys2Proof.Tab

variable {α : Type}

/-- The record listed under a number, if any. -/
def at? : Tab α → Nat → Option α
  | [], _ => none
  | (j, v) :: t, k => if j = k then some v else at? t k

/-- List a record under a number, in its place, replacing the one there. -/
def insert (k : Nat) (v : α) : Tab α → Tab α
  | [] => [(k, v)]
  | (j, w) :: t => if k < j then (k, v) :: (j, w) :: t else if j = k then (k, v) :: t else (j, w) :: insert k v t

/-- Take the record listed under a number out of the table. -/
def erase (k : Nat) (t : Tab α) : Tab α := t.filter fun p => p.1 != k

/-- The record of a number in a table whose unlisted numbers read as `d`. -/
def atD (t : Tab α) (k : Nat) (d : α) : α := (at? t k).getD d

/-- Set the record of a number in a table whose unlisted numbers read as `d`. -/
def put [DecidableEq α] (d : α) (k : Nat) (v : α) (t : Tab α) : Tab α := if v = d then erase k t else insert k v t

/-- Change every listed record, in a table whose unlisted numbers read as `d`. -/
def remap [DecidableEq α] (d : α) (f : α → α) (t : Tab α) : Tab α := (t.map fun p => (p.1, f p.2)).filter fun p => decide (p.2 ≠ d)

/-- The keys rise strictly. -/
def sorted : Tab α → Bool
  | [] => true
  | (k, _) :: t => t.all (fun p => decide (k < p.1)) && sorted t

/-- The canonical form of a table whose unlisted numbers read as `d`. -/
def canonical [DecidableEq α] (d : α) (t : Tab α) : Bool := sorted t && t.all fun p => decide (p.2 ≠ d)

end Sys2Proof.Tab
end

