-- ==== Sys2Proof/Machine/State.lean ====
section
/-! DEFINITION. The state of the SD-2040, block by block (spec 00, tables 0-1 and 0-2), its fault and refusal reasons, and the state
after a power-on reset. -/

namespace Sys2Proof.Machine

/-- Nothing stops the SD-2040: it discards, refuses or answers what it cannot use, and goes on (R125, R135, R136, R142). So there is
no fault reason. -/
inductive Fault where
  deriving DecidableEq, Repr

/-- The one refusal reason, which the host fixes. -/
inductive Refusal where
  /-- Raised by an arm of exec whose command has no meaning yet; every command has one, so nothing raises it. Safe. -/
  | notModelled (mnemonic : String)
  deriving DecidableEq, Repr

/-- The receiver of a port (R134). -/
structure PortState where
  inSync : Bool
  /-- invalid symbols received with no run of 32 valid symbols between any two, up to 4 -/
  badSymbols : Nat
  deriving DecidableEq, Repr

/-- The frame classifier (chapter 8). -/
structure Classifier where
  sitePort : PortState
  corePort : PortState
  deriving DecidableEq, Repr

/-- The site monitor (chapter 4): the site table, and the heartbeats handed to it. -/
structure SiteMonitor where
  sites : Tab SiteRecord
  inbox : List Heartbeat
  deriving DecidableEq, Repr

/-- The vote unit (chapter 5): the call table, the copies handed to it, and whether a change to LOAD waits to be taken. -/
structure VoteUnit where
  calls : Tab CallRecord
  inbox : List Copy
  stopReport : Bool
  deriving DecidableEq, Repr

/-- The location engine (chapters 1 to 3): its tables and counts, its time, and what waits to be taken by it. -/
structure LocationEngine where
  entries : Tab Entry
  loads : Tab Nat
  members : Tab (Tab Nat)
  emergencies : Tab Nat
  epoch : Epoch
  /-- the moment of the next epoch boundary; none in LOAD -/
  boundary : Option Nat
  /-- slots of the visit set not yet visited (R17) -/
  visits : List Nat
  policies : ClassTable
  ranges : Tab ClassRange
  timing : Timing
  reports : List Report
  frames : List LocationFrame
  siteReports : List EntryReport
  stopReports : List Nat
  deriving DecidableEq, Repr

/-- The reach unit (chapter 6): the static fields of the group rows, the flood override, and what waits to be taken by it. -/
structure ReachUnit where
  rows : Tab GroupRow
  floodOverride : Bool
  inbox : List ReachFrame
  siteReports : List SiteChange
  deriving DecidableEq, Repr

/-- The egress scheduler (chapter 7). -/
structure EgressScheduler where
  control : Tab (List ControlFrame)
  voice : Tab (List DownlinkCopy)
  core : List CoreFrame
  poolUsed : Nat
  credits : Tab Nat
  pointer : Nat
  siteTx : Option SiteTurn
  coreTx : Option (List Byte)
  reports : List EgressReport
  deriving DecidableEq, Repr

/-- The management unit (chapters 9 and 10). The flag, enable and condition of alert class c stand at bit c - 1, as in the alert
flags byte (table 8-5). -/
structure ManagementUnit where
  run : RunState
  lock : Bool
  causes : ResetCauses
  unit : BitVec 6
  inbox : List Request
  requests : List Request
  batch : Option Batch
  flags : BitVec 8
  enables : BitVec 8
  conditions : BitVec 8
  alertReports : List AlertReport
  counters : Tab Counter
  deriving DecidableEq, Repr

/-- The whole part, with the queue of commands in front of it. `now` is the reference time in ms, `straps` the strap pins' level. -/
structure State where
  pending : List Instr
  now : Nat
  straps : BitVec 6
  classifier : Classifier
  monitor : SiteMonitor
  vote : VoteUnit
  loc : LocationEngine
  reach : ReachUnit
  egress : EgressScheduler
  mgmt : ManagementUnit
  deriving DecidableEq, Repr

/-- The machine right after a power-on reset (R23, R43, R45, R87, R103, R119, R121, R134, R150, R152, R159), at time 0 with every
strap at 0 (log 3, log 5). -/
def State.reset : State :=
  { pending := []
    now := 0
    straps := 0
    classifier := { sitePort := { inSync := false, badSymbols := 0 }, corePort := { inSync := false, badSymbols := 0 } }
    monitor := { sites := [], inbox := [] }
    vote := { calls := [], inbox := [], stopReport := false }
    loc :=
      { entries := [], loads := [], members := [], emergencies := [], epoch := 0, boundary := none, visits := []
        policies := ClassTable.default, ranges := [], timing := Timing.default, reports := [], frames := [], siteReports := []
        stopReports := [] }
    reach := { rows := [], floodOverride := false, inbox := [], siteReports := [] }
    egress :=
      { control := [], voice := [], core := [], poolUsed := 0, credits := [], pointer := 40, siteTx := none, coreTx := none
        reports := [] }
    mgmt :=
      { run := .load, lock := false, causes := { powerOn := true, pin := false, command := false }, unit := 0, inbox := []
        requests := [], batch := none, flags := 0, enables := 0xFF, conditions := 0, alertReports := [], counters := [] } }

end Sys2Proof.Machine
end

