-- ==== Sys2Proof/Machine/Flags.lean ====
section
/-! DEFINITION. The flags the management unit computes: counters with their wrap flags (R157), and the alert flags (R154 to R156). The
flag of class c is bit c - 1 of a byte. -/

namespace Sys2Proof.Machine

/-! ### Counters -/

/-- A counter's place in its set (table 10-2). -/
def GlobalCounter.index : GlobalCounter → Nat
  | .untrackedReports => 0
  | .refusedRegistrations => 1
  | .evictions => 2
  | .purgedEntries => 3
  | .staleAcks => 4
  | .unvotedCopies => 5
  | .votedBursts => 6
  | .burstsLost => 7
  | .downlinksDiscarded => 8
  | .unreachedBursts => 9
  | .downlinksReplicated => 10
  | .downlinkCopies => 11
  | .individualFloods => 12
  | .relaysDiscarded => 13
  | .coreQueueDrops => 14
  | .coreFramesSent => 15
  | .requestOverflows => 16

/-- A counter's place in its set (table 10-2). -/
def SiteCounter.index : SiteCounter → Nat
  | .lateCopies => 0
  | .directiveDrops => 1
  | .queueDrops => 2
  | .framesSent => 3
  | .heartbeats => 4
  | .stalls => 5
  | .recoveries => 6

/-- A counter's place in its set (table 10-2). -/
def PortCounter.index : PortCounter → Nat
  | .framesAccepted => 0
  | .crcErrors => 1
  | .lengthErrors => 2
  | .kindErrors => 3
  | .formatErrors => 4
  | .invalidRadio => 5
  | .unknownSite => 6
  | .barredSite => 7
  | .otherUnit => 8
  | .syncLosses => 9

/-- The key of a port's counter set: 41 the site port, 42 the core port (R157). -/
def portSet : Port → Nat
  | .site => 41
  | .core => 42

/-- The number a counter is held under: its set's key (R157) times 32, plus its place. Every set has fewer than 32 counters. -/
def CounterId.key : CounterId → Nat
  | .global c => c.index
  | .site x c => x * 32 + c.index
  | .port p c => portSet p * 32 + c.index

/-- A counter raised by n (R157): past 0xFFFFFFFF it goes on from 0 and its wrap flag is set. -/
def Counter.add (c : Counter) (n : Nat) : Counter :=
  { value := c.value + BitVec.ofNat 32 n, wrapped := c.wrapped || decide (2 ^ 32 ≤ c.value.toNat + n) }

/-- How many counters the set of a key has; none for a key that names no set (R157). -/
def counterSetSize (key : Nat) : Option Nat :=
  if key = 0 then some 17
  else if key ≤ 40 then some 7
  else if key ≤ 42 then some 10
  else none

/-- The counters of a set, in order. -/
def counterSet (counters : Tab Counter) (key size : Nat) : List Counter :=
  (List.range size).map fun i => counters.atD (key * 32 + i) Counter.zero

/-- Wrap flags as bytes, the first counter at bit 0 of the first byte (table 9-9). -/
def wrapBytes : List Bool → List Byte
  | b0 :: b1 :: b2 :: b3 :: b4 :: b5 :: b6 :: b7 :: rest => flagByte [b0, b1, b2, b3, b4, b5, b6, b7] :: wrapBytes rest
  | [] => []
  | few => [flagByte few]

/-! ### Alert flags -/

/-- The bit of a class in the flag, enable, mask and condition bytes (table 8-5). -/
def alertBit (c : AlertClass) : BitVec 8 := 1#8 <<< (alertCode c - 1)

/-- The condition classes (R154): SITE_STALL, SITE_ALARM, EMERGENCY, TABLE_FULL. -/
def conditionClasses : BitVec 8 := 0x0F

/-- The condition classes other than SITE_STALL, which an acknowledgement clears by their condition (R156 step 2). -/
def ackedConditions : BitVec 8 := 0x0E

/-- The event classes (R154). -/
def eventClasses : BitVec 8 := 0xF0

/-- The classes in ascending code. -/
def alertClasses : List AlertClass :=
  [.siteStall, .siteAlarm, .emergency, .tableFull, .callTableFull, .queueDrop, .linkError, .unknownTalkgroup]

/-- A byte of class bits holds a class. -/
def hasClass (b : BitVec 8) (c : AlertClass) : Bool := (b &&& alertBit c) != 0

/-- A byte of class bits with one bit given. -/
def setClass (b : BitVec 8) (c : AlertClass) (v : Bool) : BitVec 8 := if v then b ||| alertBit c else b &&& ~~~ alertBit c

/-- SITE_STALL follows the per-site stall flags while its class is enabled (R154). -/
def followStall (flags enables : BitVec 8) (anyStall : Bool) : BitVec 8 :=
  setClass flags .siteStall (anyStall && hasClass enables .siteStall)

/-- The flags after a report (R154): a report of a false condition or for a disabled class sets none; SITE_STALL follows. -/
def flagsAfterReport (flags enables : BitVec 8) (anyStall : Bool) (r : AlertReport) : BitVec 8 :=
  match r.cls with
  | .siteStall => followStall flags enables anyStall
  | c => if r.value && hasClass enables c then flags ||| alertBit c else flags

/-- The conditions last reported, after a report (R154); an event class has none. -/
def conditionsAfterReport (conditions : BitVec 8) (r : AlertReport) : BitVec 8 :=
  if hasClass conditionClasses r.cls then setClass conditions r.cls r.value else conditions

/-- The flags after step 2 of an acknowledgement (R156): an event class in the mask is cleared, a condition class other than
SITE_STALL in the mask is cleared if its condition is false. -/
def flagsAfterMask (flags mask conditions : BitVec 8) : BitVec 8 :=
  flags &&& ~~~ (mask &&& (eventClasses ||| (ackedConditions &&& ~~~ conditions)))

/-- The flags after step 3 of an acknowledgement (R156): a class turned off is cleared, a condition class turned on whose condition is
true is set. -/
def flagsAfterEnables (flags old new conditions : BitVec 8) : BitVec 8 :=
  (flags &&& new) ||| (new &&& ~~~ old &&& conditions &&& conditionClasses)

end Sys2Proof.Machine
end

