-- ==== Sys2Proof/Machine/Scores.lean ====
section
/-! DEFINITION. The score arithmetic and the choices made from it (chapter 2), over one entry: ages, effective scores, smoothing, the
candidate list, decision values. -/

namespace Sys2Proof.Machine

/-- The age of a stored epoch value by the formula of R16: the difference modulo 2^32, held at 255. A value left unchanged for 2^32
epochs thus reads as a small age again, the model's choice (log 32). -/
def age (now e : Epoch) : Nat := min (now - e).toNat 255

/-- Raise a count by one, holding at 255. -/
def holdInc (n : Nat) : Nat := if n < 255 then n + 1 else n

/-- The policy record of a class (R43). -/
def ClassTable.policy (t : ClassTable) : RadioClass → ClassPolicy
  | .ground => t.ground
  | .vehicle => t.vehicle
  | .aircraft => t.aircraft
  | .command => t.command

/-- The class table with one record replaced. -/
def ClassTable.withPolicy (t : ClassTable) (c : RadioClass) (p : ClassPolicy) : ClassTable :=
  match c with
  | .ground => { t with ground := p }
  | .vehicle => { t with vehicle := p }
  | .aircraft => { t with aircraft := p }
  | .command => { t with command := p }

/-- The class of a new entry: that of the first valid record, in rising number, that holds the radio ID, else GROUND (R21). -/
def classOf (ranges : Tab ClassRange) (radio : RadioId) : RadioClass :=
  let hit (k : Nat) : Option RadioClass :=
    let r := ranges.atD k ClassRange.default
    if r.valid && decide (r.first ≤ radio) && decide (radio ≤ r.last) then some r.cls else none
  ((List.range Config.rangeRecords).findSome? hit).getD .ground

/-- A raw quality as a copy gives it: none is NO_DECODE (R26). -/
def rawQuality (q : Nat) : Option Nat := if q = 255 then none else some (min q 63)

/-- A raw quality as a registration gives it: always decoded, 255 read as 0 (R7, R26). -/
def registrationQuality (q : Nat) : Nat := if q = 255 then 0 else min q 63

/-- The adjusted quality of a decoded report (R27). -/
def adjust (offset : Int) (q : Nat) : Nat := (max 0 (min 63 ((q : Int) + offset))).toNat

/-- The effective score of a candidate (R28); the subtraction stops at 0. -/
def effScore (p : ClassPolicy) (now : Epoch) (c : Candidate) : Nat := c.score - p.decay * age now c.scoreEpoch

/-- The update of a candidate by a report from its site (R29): `a` is the adjusted quality, none for NO_DECODE. Integer division by 16
rounds toward minus infinity. -/
def smooth (p : ClassPolicy) (now : Epoch) (a : Option Nat) (c : Candidate) : Candidate :=
  let target : Int := 16 * ((a.getD 0 : Nat) : Int)
  let eff : Int := (effScore p now c : Nat)
  let inc : Int := ((target - eff) * (p.weight : Int) + 8) / 16
  { c with score := (eff + inc).toNat, scoreEpoch := now, heardEpoch := if a.isSome then now else c.heardEpoch }

/-- A new candidate record (R30). -/
def newCandidate (now : Epoch) (site a : Nat) : Candidate := { site := site, score := 16 * a, scoreEpoch := now, heardEpoch := now }

/-- A candidate put in its place in the list. -/
def insertCand (c : Candidate) : List Candidate → List Candidate
  | [] => [c]
  | d :: t => if c.site < d.site then c :: d :: t else d :: insertCand c t

/-- The list without a site's record. -/
def dropCand (site : Nat) (cs : List Candidate) : List Candidate := cs.filter fun c => c.site != site

/-- The record of a site in the list. -/
def candOf (site : Nat) (cs : List Candidate) : Option Candidate := cs.find? fun c => c.site == site

/-- `c` is rather the victim than `d` (R31): lower effective score, then greater heard age, then higher site. -/
def rather (p : ClassPolicy) (now : Epoch) (c d : Candidate) : Bool :=
  let ec := effScore p now c
  let ed := effScore p now d
  let hc := age now c.heardEpoch
  let hd := age now d.heardEpoch
  decide (ec < ed) || (decide (ec = ed) && (decide (hd < hc) || (decide (hc = hd) && decide (d.site < c.site))))

/-- The victim among the records that are neither serving site nor target (R31). -/
def victim (p : ClassPolicy) (now : Epoch) (kept : Nat → Bool) (cs : List Candidate) : Option Candidate :=
  (cs.filter fun c => !kept c.site).foldl
    (fun v c => match v with
      | none => some c
      | some d => if rather p now c d then some c else some d) none

/-- The candidate list after a decoded report from a site it does not hold (R30, R31). `force` replaces the victim without the
comparison of scores, as a registration (R57) and FORCE_ROAM (R51) do. -/
def addCand (p : ClassPolicy) (now : Epoch) (kept : Nat → Bool) (force : Bool) (new : Candidate) (cs : List Candidate) :
    List Candidate :=
  if cs.length < Config.maxCandidates then insertCand new cs
  else
    match victim p now kept cs with
    | none => cs
    | some v => if force || decide (effScore p now v < new.score) then insertCand new (dropCand v.site cs) else cs

/-- The candidate list after a report (R25 step 3). -/
def updateCands (p : ClassPolicy) (now : Epoch) (kept : Nat → Bool) (force : Bool) (site : Nat) (a : Option Nat)
    (cs : List Candidate) : List Candidate :=
  if (candOf site cs).isSome then cs.map fun c => if c.site = site then smooth p now a c else c
  else
    match a with
    | none => cs
    | some q => addCand p now kept force (newCandidate now site q) cs

/-- A site is the entry's serving site or target, and so never a victim and never stale (R18, R31). -/
def Entry.uses (e : Entry) (site : Nat) : Bool :=
  site == e.serving || (match e.handover with | some h => site == h.target | none => false)

/-- The smallest heard age over the candidates, 255 for an empty list (R10, R19). -/
def newestHeardAge (now : Epoch) (e : Entry) : Nat := e.cands.foldl (fun m c => min m (age now c.heardEpoch)) 255

/-- The heard age of the serving candidate, 255 if the list does not hold it (log 25). -/
def servingHeardAge (now : Epoch) (e : Entry) : Nat :=
  match candOf e.serving e.cands with
  | some c => age now c.heardEpoch
  | none => 255

/-- The sites at which the entry holds a membership (R4, table 1-2), and which carry its load (R5). -/
def Entry.sites (e : Entry) : List Nat :=
  match e.state, e.handover with
  | .unattached, _ => []
  | .attached, _ | .shadow, _ => [e.serving]
  | .moving, some h => if e.serving = 0 then [h.target] else [e.serving, h.target]
  | .moving, none => if e.serving = 0 then [] else [e.serving]

end Sys2Proof.Machine
end

