-- ==== Sys2Proof/Machine/Ops.lean ====
section
/-! DEFINITION. The operations the blocks share over the state: counting, reporting, reading sites, rows and entries, offering frames
to the queues, issuing directives and notices, and writing an entry with its counts. -/

namespace Sys2Proof.Machine

/-! ### Counting and reporting -/

/-- Raise a counter by n (R157). -/
def State.countBy (n : Nat) (c : CounterId) (s : State) : State :=
  { s with
    mgmt.counters := s.mgmt.counters.put Counter.zero c.key ((s.mgmt.counters.atD c.key Counter.zero).add n) }

/-- Raise a counter by 1. -/
def State.count (c : CounterId) (s : State) : State := s.countBy 1 c

/-- A block reports a condition's new value, or an event, to the management unit (R154). -/
def State.reportAlert (c : AlertClass) (value : Bool) (s : State) : State :=
  { s with mgmt.alertReports := s.mgmt.alertReports ++ [{ cls := c, value := value }] }

/-- A block reports a condition if its value has changed (R154). -/
def State.reportChange (c : AlertClass) (before after : Bool) (s : State) : State :=
  if before = after then s else s.reportAlert c after

/-! ### Sites -/

/-- The record of a site. -/
def State.site (s : State) (x : Nat) : SiteRecord := s.monitor.sites.atD x SiteRecord.default

/-- The state with a site's record replaced. -/
def State.putSite (x : Nat) (r : SiteRecord) (s : State) : State :=
  { s with monitor.sites := s.monitor.sites.put SiteRecord.default x r }

/-- A site is UP, as the site monitor holds its state at this moment (R72). -/
def State.siteUp (s : State) (x : Nat) : Bool := decide ((s.site x).state = .up)

/-- Some site's alarm flag is set (R83). -/
def State.anyAlarm (s : State) : Bool := s.monitor.sites.any fun p => p.2.alarm

/-- Some site's stall flag is set (R84). -/
def State.anyStall (s : State) : Bool := s.monitor.sites.any fun p => p.2.stall

/-- The 40 stall flags (R155). -/
def State.stallSet (s : State) : SiteSet := siteSet fun x => (s.site x).stall

/-- All the UP sites, ascending. -/
def State.upSites (s : State) : List Nat := ((List.range Config.siteCount).map (· + 1)).filter fun x => s.siteUp x

/-! ### The egress scheduler's queues -/

/-- The control lane of a site. -/
def State.controlLane (s : State) (x : Nat) : List ControlFrame := s.egress.control.atD x []

/-- The voice lane of a site. -/
def State.voiceLane (s : State) (x : Nat) : List DownlinkCopy := s.egress.voice.atD x []

/-- The credits of a site. -/
def State.credits (s : State) (x : Nat) : Nat := s.egress.credits.atD x 0

/-- Free slots of the buffer pool (R120). -/
def State.poolFree (s : State) : Nat := Config.poolSlots - s.egress.poolUsed

/-- The pool has a slot for a voice-class frame (R120). -/
def State.voiceSlot (s : State) : Bool := decide (Config.poolReserve < s.poolFree)

/-- The pool has a slot for a control-class frame (R120). -/
def State.controlSlot (s : State) : Bool := decide (1 ≤ s.poolFree)

/-- Check 1 of R123: the site is WAITING, UP or STALLED. -/
def State.laneOpen (s : State) (x : Nat) : Bool :=
  match (s.site x).state with
  | .waiting | .up | .stalled => true
  | .off | .barred => false

/-- The verdict on a frame offered to a site's control lane (R123). -/
def State.controlVerdict (s : State) (x : Nat) : Offer :=
  if !s.laneOpen x then .noSite
  else if (s.controlLane x).length < Config.controlDepth && s.controlSlot then .admitted
  else .noRoom

/-- The verdict on a frame offered to a site's voice lane (R123). -/
def State.voiceVerdict (s : State) (x : Nat) : Offer :=
  if !s.laneOpen x then .noSite
  else if (s.voiceLane x).length < (s.site x).cfg.voiceDepth && s.voiceSlot then .admitted
  else .noRoom

/-- The verdict on a frame offered to the core queue (R124). -/
def State.coreVerdict (s : State) (f : CoreFrame) : Offer :=
  match f with
  | .response _ => if s.egress.core.length < Config.coreDepth && s.controlSlot then .admitted else .noRoom
  | .uplink _ | .notice _ | .alert _ =>
    if s.egress.core.length < Config.coreDepth - Config.coreReserve && s.voiceSlot then .admitted else .noRoom

/-- A refused frame is dropped and counted; a refusal for lack of room is a queue-drop event (R125). -/
def State.dropped (c : CounterId) (v : Offer) (s : State) : State :=
  match v with
  | .admitted => s
  | .noSite => s.count c
  | .noRoom => (s.count c).reportAlert .queueDrop true

/-- A frame joins the back of a site's control lane and takes a slot (R123). -/
def State.pushControl (x : Nat) (f : ControlFrame) (s : State) : State :=
  { s with
    egress.control := s.egress.control.put [] x (s.controlLane x ++ [f])
    egress.poolUsed := s.egress.poolUsed + 1 }

/-- A frame joins the back of a site's voice lane and takes a slot (R123). -/
def State.pushVoice (x : Nat) (f : DownlinkCopy) (s : State) : State :=
  { s with
    egress.voice := s.egress.voice.put [] x (s.voiceLane x ++ [f])
    egress.poolUsed := s.egress.poolUsed + 1 }

/-- A frame joins the back of the core queue and takes a slot (R124). -/
def State.pushCore (f : CoreFrame) (s : State) : State :=
  { s with
    egress.core := s.egress.core ++ [f]
    egress.poolUsed := s.egress.poolUsed + 1 }

/-- Offer a frame to a site's control lane (R123, R125). -/
def State.offerControl (x : Nat) (f : ControlFrame) (s : State) : State × Offer :=
  match s.controlVerdict x with
  | .admitted => (s.pushControl x f, .admitted)
  | v => (s.dropped (.site x .queueDrops) v, v)

/-- Offer a frame to a site's voice lane (R123, R125). -/
def State.offerVoice (x : Nat) (f : DownlinkCopy) (s : State) : State × Offer :=
  match s.voiceVerdict x with
  | .admitted => (s.pushVoice x f, .admitted)
  | v => (s.dropped (.site x .queueDrops) v, v)

/-- Offer a frame to the core queue (R124, R125). -/
def State.offerCore (f : CoreFrame) (s : State) : State :=
  match s.coreVerdict f with
  | .admitted => s.pushCore f
  | v => s.dropped (.global .coreQueueDrops) v

/-- Offer the response to a request (R141). -/
def State.respond (tag : BitVec 16) (res : Result) (body : List Byte) (s : State) : State :=
  s.offerCore (.response { tag := tag, result := res, body := body })

/-! ### Directives and notices of the location engine -/

/-- Issue a directive to its site (R47): only if the site is UP; one the lane cannot take is dropped and counted (R48). The state is
read and the frame offered in one event, so no BAR or REMOVE falls between, the model's choice (log 36). -/
def State.issueDirective (d : Directive) (s : State) : State :=
  if s.siteUp d.site then
    match s.offerControl d.site (.directive d) with
    | (s', .admitted) => s'
    | (s', _) => s'.count (.site d.site .directiveDrops)
  else s

/-- Send a notice (chapter 10.4): offered to the core queue, and dropped there if refused. -/
def State.notify (kind : NoticeKind) (radio : RadioId) (fromSite toSite : Nat) (g : Talkgroup) (cause : NoticeCause) (s : State) :
    State :=
  s.offerCore
    (.notice
      { kind := kind, radio := radio, fromSite := fromSite, toSite := toSite, talkgroup := g, cause := cause, epoch := s.loc.epoch })

/-- The cause a handover's ending notice carries (R49). -/
def Origin.cause : Origin → NoticeCause
  | .directed => .directed
  | .forced => .forced

/-! ### Group rows -/

/-- The static fields of a group row. -/
def State.row (s : State) (k : Nat) : GroupRow := s.reach.rows.atD k GroupRow.default

/-- The valid row that carries a talkgroup, if any (R105: no two do). -/
def rowOf (rows : Tab GroupRow) (g : Talkgroup) : Option Nat :=
  (rows.find? fun p => p.2.valid && p.2.talkgroup == g).map (·.1)

/-- The member counts of a row. -/
def State.memberRow (s : State) (k : Nat) : Tab Nat := s.loc.members.atD k []

/-- The member count of a row at a site (R106). -/
def State.memberCount (s : State) (k x : Nat) : Nat := (s.memberRow k).atD x 0

/-- The emergency count of a row (R107). -/
def State.emergencyCount (s : State) (k : Nat) : Nat := s.loc.emergencies.atD k 0

/-- The load of a site (R5). -/
def State.load (s : State) (x : Nat) : Nat := s.loc.loads.atD x 0

/-! ### Entries and their counts -/

/-- A count raised by 1 at each of some sites. -/
def raiseAt (xs : List Nat) (t : Tab Nat) : Tab Nat := xs.foldl (fun t x => t.put 0 x (t.atD x 0 + 1)) t

/-- A count lowered by 1 at each of some sites. -/
def lowerAt (xs : List Nat) (t : Tab Nat) : Tab Nat := xs.foldl (fun t x => t.put 0 x (t.atD x 0 - 1)) t

/-- The sites of an entry, or none for a free slot. -/
def sitesOf (e : Option Entry) : List Nat :=
  match e with
  | some e => e.sites
  | none => []

/-- The memberships of an entry (table 1-2): its talkgroup at each of its sites. -/
def membershipsOf (e : Option Entry) : List (Talkgroup × Nat) :=
  match e with
  | some e => e.sites.map fun x => (e.talkgroup, x)
  | none => []

/-- The talkgroup in which an entry counts as an emergency (R107). -/
def emergencyOf (e : Option Entry) : List Talkgroup :=
  match e with
  | some e => if e.emergency then [e.talkgroup] else []
  | none => []

/-- What is held after an event and was not held before it. -/
def gained {α : Type} [DecidableEq α] (before after : List α) : List α := after.filter fun x => !before.contains x

/-- The member counts changed at some memberships (R106); a talkgroup with no row is skipped (R108). -/
def changeMembers (rows : Tab GroupRow) (f : List Nat → Tab Nat → Tab Nat) (ms : List (Talkgroup × Nat)) (m : Tab (Tab Nat)) :
    Tab (Tab Nat) :=
  ms.foldl (fun m p => match rowOf rows p.1 with | none => m | some k => m.put [] k (f [p.2] (m.atD k []))) m

/-- The emergency counts changed for some talkgroups (R107); one with no row is skipped (R108). -/
def changeEmergencies (rows : Tab GroupRow) (f : List Nat → Tab Nat → Tab Nat) (gs : List Talkgroup) (t : Tab Nat) : Tab Nat :=
  gs.foldl (fun t g => match rowOf rows g with | none => t | some k => f [k] t) t

/-- A slot holds an entry that is MOVING. -/
def isMoving (e : Option Entry) : Bool :=
  match e with
  | some e => decide (e.state = .moving)
  | none => false

/-- The entry in a slot. -/
def State.entry (s : State) (slot : Nat) : Option Entry := s.loc.entries.at? slot

/-- Write a slot, occupied or (with none) free, and change the loads, member counts and emergency counts by the difference in the same
event (R5, R106, R107, R14). A freed entry takes nothing that still waits for it; an entry that leaves MOVING has no STOP event left
(log 15). -/
def State.writeEntry (slot : Nat) (new : Option Entry) (s : State) : State :=
  let old := s.entry slot
  let rows := s.reach.rows
  { s with
    loc.entries := match new with | some e => s.loc.entries.insert slot e | none => s.loc.entries.erase slot
    loc.loads := raiseAt (gained (sitesOf old) (sitesOf new)) (lowerAt (gained (sitesOf new) (sitesOf old)) s.loc.loads)
    loc.members :=
      changeMembers rows raiseAt (gained (membershipsOf old) (membershipsOf new))
        (changeMembers rows lowerAt (gained (membershipsOf new) (membershipsOf old)) s.loc.members)
    loc.emergencies :=
      changeEmergencies rows raiseAt (gained (emergencyOf old) (emergencyOf new))
        (changeEmergencies rows lowerAt (gained (emergencyOf new) (emergencyOf old)) s.loc.emergencies)
    loc.visits := if new.isSome then s.loc.visits else s.loc.visits.filter (· != slot)
    loc.siteReports := if new.isSome then s.loc.siteReports else s.loc.siteReports.filter (·.slot != slot)
    loc.stopReports := if isMoving old && !isMoving new then s.loc.stopReports.filter (· != slot) else s.loc.stopReports }

/-- Change the entry in a slot, with its counts. -/
def State.modifyEntry (slot : Nat) (f : Entry → Entry) (s : State) : State :=
  match s.entry slot with
  | some e => s.writeEntry slot (some (f e))
  | none => s

/-- The slot and entry of a radio, if it has one (R1, R7). -/
def State.lookup (s : State) (radio : RadioId) : Option (Nat × Entry) := s.loc.entries.find? fun p => p.2.radio == radio

/-- Some occupied entry has emergency set (R13). -/
def State.anyEmergency (s : State) : Bool := s.loc.entries.any fun p => p.2.emergency

/-- All 2048 slots are occupied (R1). -/
def State.tableFull (s : State) : Bool := decide (Config.radioSlots ≤ s.loc.entries.length)

/-- The location engine's conditions are reported if an event that began in `before` has changed them (R1, R13, R154). -/
def State.reportConditions (before s : State) : State :=
  (s.reportChange .emergency before.anyEmergency s.anyEmergency).reportChange .tableFull before.tableFull s.tableFull

/-- An event at the location engine, with the reports of its conditions. -/
def State.locEvent (f : State → State) (s : State) : State := State.reportConditions s (f s)

/-- The policy record of an entry's class. -/
def State.policy (s : State) (e : Entry) : ClassPolicy := s.loc.policies.policy e.cls

/-- The lowest free slot at or above k, looking at n slots (R1). -/
def freeSlot (t : Tab Entry) : Nat → Nat → Option Nat
  | 0, _ => none
  | n + 1, k => if (t.at? k).isNone then some k else freeSlot t n (k + 1)

/-- The entry that eviction would free (R10): UNATTACHED with emergency clear, the greatest newest heard age, the lowest slot. -/
def evictee (now : Epoch) (t : Tab Entry) : Option Nat :=
  (((t.filter fun p => decide (p.2.state = .unattached) && !p.2.emergency)).foldl
    (fun (v : Option (Nat × Nat)) p =>
      let a := newestHeardAge now p.2
      match v with
      | none => some (p.1, a)
      | some (k, b) => if b < a || (decide (b = a) && decide (p.1 < k)) then some (p.1, a) else some (k, b)) none).map (·.1)

/-- A slot for a new entry (R10): the lowest free one, or else one freed by an eviction, which is counted. -/
def State.obtainSlot (s : State) : Option (Nat × State) :=
  match freeSlot s.loc.entries Config.radioSlots 0 with
  | some k => some (k, s)
  | none =>
    match evictee s.loc.epoch s.loc.entries with
    | some k => some (k, (s.writeEntry k none).count (.global .evictions))
    | none => none

/-! ### Handovers -/

/-- Start a handover of the entry in a slot to site t (R50). The answer says whether it was started: if t's lane cannot take the SERVE,
only the egress scheduler's count of the refusal stands. -/
def State.startHandover (slot : Nat) (e : Entry) (t : Nat) (origin : Origin) (s : State) : State × Bool :=
  let n := e.number + 1
  match s.offerControl t
    (.directive
      { site := t, kind := .serve, radio := e.radio, talkgroup := e.talkgroup, other := e.serving, number := n, tableFull := false }) with
  | (s1, .admitted) =>
    let s2 := s1.issueDirective
      { site := e.serving, kind := .move, radio := e.radio, talkgroup := e.talkgroup, other := t, number := n, tableFull := false }
    (s2.writeEntry slot
      (some
        { e with
          number := n
          handover := some { target := t, origin := origin, retries := 0, age := 0, accepted := false }
          state := .moving }), true)
  | (s1, _) => (s1, false)

/-- The RELEASE an entry's serving site is sent (R47). -/
def State.release (e : Entry) (other : Nat) (s : State) : State :=
  s.issueDirective
    { site := e.serving, kind := .release, radio := e.radio, talkgroup := e.talkgroup, other := other, number := e.number
      tableFull := false }

/-- The CANCEL a handover's target is sent (R47). -/
def State.cancel (e : Entry) (h : Handover) (s : State) : State :=
  s.issueDirective
    { site := h.target, kind := .cancel, radio := e.radio, talkgroup := e.talkgroup, other := e.serving, number := e.number
      tableFull := false }

/-- The SHADOW notice of an entry that goes to SHADOW (R38). -/
def State.notifyShadow (e : Entry) (s : State) : State := s.notify .shadow e.radio e.serving 0 e.talkgroup .none

/-- An ATTACHED entry goes to SHADOW (R38). -/
def State.enterShadow (slot : Nat) (e : Entry) (s : State) : State :=
  (s.writeEntry slot (some { e with state := .shadow, shadow := 0 })).notifyShadow e

/-- Abandon a handover (R55). -/
def State.abandon (slot : Nat) (e : Entry) (h : Handover) (s : State) : State :=
  let hold := (s.policy e).shadowHold
  let next : RadioState :=
    if e.serving = 0 then .unattached
    else if s.siteUp e.serving && decide (servingHeardAge s.loc.epoch e < hold) then .attached
    else .shadow
  let e' : Entry :=
    { e with
      handover := none
      failed := some { site := h.target, remaining := Config.failedEpochs }
      state := next
      shadow := if next = .shadow then 0 else e.shadow }
  let s1 := ((s.cancel e h).writeEntry slot (some e')).notify .roamFailed e.radio e.serving h.target e.talkgroup h.origin.cause
  if next = .shadow then s1.notifyShadow e else s1

/-- The candidate at a site is an eligible target of an entry (R33). -/
def State.eligible (s : State) (e : Entry) (c : Candidate) : Bool :=
  c.site != e.serving && s.siteUp c.site && decide (s.load c.site < (s.site c.site).cfg.roamInLimit) &&
    decide ((s.policy e).floor ≤ effScore (s.policy e) s.loc.epoch c) &&
    (match e.failed with | some f => f.site != c.site | none => true)

/-- The decision value of a candidate (R32). -/
def State.decisionValue (s : State) (e : Entry) (c : Candidate) : Int :=
  (effScore (s.policy e) s.loc.epoch c : Nat) + (s.site c.site).cfg.bias

/-- The best eligible target (R34): the highest decision value, then the lower site number. -/
def State.bestTarget (s : State) (e : Entry) : Option Candidate :=
  (e.cands.filter fun c => s.eligible e c).foldl
    (fun v c => match v with
      | none => some c
      | some d =>
        if s.decisionValue e d < s.decisionValue e c || (s.decisionValue e d == s.decisionValue e c && decide (c.site < d.site)) then
          some c
        else some d) none

/-- Whether the best target is taken: by R35 from ATTACHED, always from SHADOW (R36), never otherwise (R34). -/
def State.takesTarget (s : State) (e : Entry) (b : Candidate) : Bool :=
  match e.state with
  | .attached =>
    (match candOf e.serving e.cands with
      | some v => decide (s.decisionValue e v + ((s.policy e).hysteresis : Int) ≤ s.decisionValue e b)
      | none => false) &&
      decide ((s.policy e).dwell ≤ e.dwell) && !e.emergency
  | .shadow => true
  | .unattached | .moving => false

/-- The roam decision for the entry in a slot (R34 to R37). -/
def State.roamDecision (slot : Nat) (s : State) : State :=
  match s.entry slot with
  | none => s
  | some e =>
    match s.bestTarget e with
    | none => s
    | some b => if s.takesTarget e b then (s.startHandover slot e b.site .directed).1 else s

end Sys2Proof.Machine
end

