-- ==== Sys2Proof/Machine/Egress.lean ====
section
/-! DEFINITION. The egress scheduler's commands (chapter 7): flushes, turns of the site port, the core port. -/

namespace Sys2Proof.Machine

/-- A port receives frames and its transmitter sends them (R134): IN_SYNC, with no loss of sync due (log 7). -/
def PortState.live (p : PortState) : Bool := p.inSync && decide (p.badSymbols < 4)

/-! ### Reports of the site monitor -/

/-- The oldest report for a site not yet taken. -/
def State.nextEgressReport (x : Nat) (s : State) : Option EgressReport := s.egress.reports.find? fun r => r.site == x

/-- The state with that report taken. -/
def State.takeEgressReport (r : EgressReport) (s : State) : State := { s with egress.reports := s.egress.reports.erase r }

/-- SITE_UP_EGRESS (R74): the change is taken, and from now on the site's held lanes may be released (log 13). -/
def execSiteUpEgress (site : Nat) (s : State) : Host.Outcome State Fault Refusal :=
  match s.nextEgressReport site with
  | some r =>
    match r.news with
    | .up => .next (s.takeEgressReport r)
    | .flush => .next s
  | none => .next s

/-- Remove every frame from a site's lanes, free their slots and count each as a drop (R130). -/
def State.flushLanes (x : Nat) (s : State) : State :=
  let n := (s.controlLane x).length + (s.voiceLane x).length
  ({ s with
      egress.control := s.egress.control.put [] x []
      egress.voice := s.egress.voice.put [] x []
      egress.poolUsed := s.egress.poolUsed - n } : State).countBy n (.site x .queueDrops)

/-- FLUSH (R130): the order to flush is taken, and carried out. -/
def execFlush (site : Nat) (s : State) : Host.Outcome State Fault Refusal :=
  match s.nextEgressReport site with
  | some r =>
    match r.news with
    | .flush => .next ((s.takeEgressReport r).flushLanes site)
    | .up => .next s
  | none => .next s

/-! ### Turns of the site port -/

/-- The egress scheduler may release a site's lanes: it is UP (R127), and the change to UP has been taken (R74; log 13). -/
def State.released (s : State) (x : Nat) : Bool := s.siteUp x && !s.egress.reports.contains { site := x, news := .up }

/-- The size m of a voice turn (R127). -/
def State.voiceTurn (s : State) (x : Nat) : Nat := min (s.site x).cfg.releaseThreshold (s.voiceLane x).length

/-- A site has a turn ready (R127). -/
def State.turnReady (s : State) (x : Nat) : Bool :=
  s.released x &&
    (if (s.controlLane x).length = 0 then decide (0 < (s.voiceLane x).length) && decide (s.voiceTurn x ≤ s.credits x)
     else decide (1 ≤ s.credits x))

/-- The sites after the turn pointer, in the order they are considered (R128). -/
def sitesAfter (pointer : Nat) : List Nat := (List.range Config.siteCount).map fun i => (pointer + i) % Config.siteCount + 1

/-- The number of frames of a site's turn (R127). -/
def State.turnSize (s : State) (x : Nat) : Nat := if (s.controlLane x).length = 0 then s.voiceTurn x else 1

/-- The frames of a site's turn, as they go out on the line (R127, R128). -/
def State.turnFrames (s : State) (x : Nat) : List (List Byte) :=
  if (s.controlLane x).length = 0 then ((s.voiceLane x).take (s.voiceTurn x)).map (DownlinkCopy.bytes s.mgmt.unit)
  else ((s.controlLane x).take 1).map (ControlFrame.bytes s.mgmt.unit)

/-- Take the turn of a site (R128). -/
def State.takeTurn (x : Nat) (s : State) : State :=
  let n := s.turnSize x
  let control := (s.controlLane x).length ≠ 0
  ({ s with
      egress.control := if control then s.egress.control.put [] x ((s.controlLane x).drop 1) else s.egress.control
      egress.voice := if control then s.egress.voice else s.egress.voice.put [] x ((s.voiceLane x).drop n)
      egress.poolUsed := s.egress.poolUsed - n
      egress.credits := s.egress.credits.put 0 x (s.credits x - n)
      egress.pointer := x
      egress.siteTx := some { site := x, frames := s.turnFrames x } } : State).countBy n (.site x .framesSent)

/-- SITE_TURN (R127, R128): the transmitter is free, the port in sync and some site has a turn ready; otherwise nothing changes.
R128 lets either of two turns that become ready together at a waiting transmitter go first; the first after the pointer goes, the
model's choice (log 39). -/
def execSiteTurn (s : State) : Host.Outcome State Fault Refusal :=
  if s.egress.siteTx = none ∧ s.classifier.sitePort.live = true then
    match (sitesAfter s.egress.pointer).find? fun x => s.turnReady x with
    | some x => .next (s.takeTurn x)
    | none => .next s
  else .next s

/-- SITE_TURN_SENT (R128): the transmitter is free again. -/
def execSiteTurnSent (s : State) : Host.Outcome State Fault Refusal := .next { s with egress.siteTx := none }

/-! ### The core port -/

/-- CORE_TAKE (R129): the transmitter is free, the port in sync and the queue not empty; otherwise nothing changes. -/
def execCoreTake (s : State) : Host.Outcome State Fault Refusal :=
  if s.egress.coreTx = none ∧ s.classifier.corePort.live = true then
    match s.egress.core with
    | f :: rest =>
      .next
        (({ s with
            egress.core := rest
            egress.poolUsed := s.egress.poolUsed - 1
            egress.coreTx := some (f.bytes s.mgmt.unit) } : State).count (.global .coreFramesSent))
    | [] => .next s
  else .next s

/-- CORE_FRAME_SENT (R129): the transmitter is free again. -/
def execCoreFrameSent (s : State) : Host.Outcome State Fault Refusal := .next { s with egress.coreTx := none }

end Sys2Proof.Machine
end

