-- ==== Sys2Proof/Machine/Line.lean ====
section
/-! DEFINITION. The frame classifier's commands (chapter 8): sync, framing faults, and received frames. -/

namespace Sys2Proof.Machine

/-- The receiver of a port. -/
def State.portState (s : State) : Port → PortState
  | .site => s.classifier.sitePort
  | .core => s.classifier.corePort

/-- The state with a port's receiver replaced. -/
def State.putPort (p : Port) (r : PortState) (s : State) : State :=
  match p with
  | .site => { s with classifier.sitePort := r }
  | .core => { s with classifier.corePort := r }

/-- A frame the transmitter of a port was sending is cut off (R134). -/
def State.cutOff (p : Port) (s : State) : State :=
  match p with
  | .site => { s with egress.siteTx := none }
  | .core => { s with egress.coreTx := none }

/-- SYNC_GAINED (R134): a HUNTING port becomes IN_SYNC. -/
def execSyncGained (port : Port) (s : State) : Host.Outcome State Fault Refusal :=
  if (s.portState port).inSync then .next s else .next (s.putPort port { inSync := true, badSymbols := 0 })

/-- The port has met the cause of a loss of sync (R134; the 1 ms without signal is the line's to report, log 7). -/
def PortState.loses (r : PortState) : SyncLossCause → Bool
  | .invalidSymbols => r.inSync && decide (4 ≤ r.badSymbols)
  | .noSignal => r.inSync

/-- SYNC_LOST (R134): an IN_SYNC port that has met the cause becomes HUNTING. -/
def execSyncLost (port : Port) (cause : SyncLossCause) (s : State) : Host.Outcome State Fault Refusal :=
  if (s.portState port).loses cause then
    .next
      ((((s.putPort port { inSync := false, badSymbols := 0 }).cutOff port).count (.port port .syncLosses)).reportAlert
        .linkError true)
  else .next s

/-- Invalid symbols so far with no run of 32 valid symbols between any two (R134). -/
def PortState.badAfter (r : PortState) (cleanRun : Nat) : Nat := if 32 ≤ cleanRun then 1 else min 4 (r.badSymbols + 1)

/-- INVALID_SYMBOL (R135): on a live port, it discards a frame in progress as a CRC error and counts toward loss of sync. -/
def execInvalidSymbol (port : Port) (inFrame : Bool) (cleanRun : Nat) (s : State) : Host.Outcome State Fault Refusal :=
  let r := s.portState port
  if r.live then
    let s1 := s.putPort port { r with badSymbols := r.badAfter cleanRun }
    .next (if inFrame then s1.count (.port port .crcErrors) else s1)
  else .next s

/-- FRAME_TOO_LONG (R135): on a live port, counted as a length error. -/
def execFrameTooLong (port : Port) (s : State) : Host.Outcome State Fault Refusal :=
  if (s.portState port).live then .next (s.count (.port port .lengthErrors)) else .next s

/-- Checks 4 to 7 on a frame that was read (R136, R137, R138): the counter of the first that fails. -/
def State.checkFrame (s : State) (unit : Byte) (f : ReceivedFrame) : Option PortCounter :=
  let badRadio : Bool := match f.radio? with | some r => !validRadio r | none => false
  let badSite : Bool := match f.site? with
    | some x => x == 0 || decide (Config.siteCount < x) || decide ((s.site x).state = .off)
    | none => false
  let barred : Bool := match f with
    | .reception c => decide ((s.site c.site).state = .barred)
    | .registration r => decide ((s.site r.site).state = .barred)
    | .ack a => decide ((s.site a.site).state = .barred)
    | .heartbeat _ | .downlink _ | .relay _ | .request _ => false
  let otherUnit : Bool := match f with
    | .request _ => decide (unit ≠ s.mgmt.unit.setWidth 8)
    | _ => false
  if badRadio then some .invalidRadio
  else if badSite then some .unknownSite
  else if barred then some .barredSite
  else if otherUnit then some .otherUnit
  else none

/-- The verdict on a received frame (R135, R136): the frame accepted, or the counter of the first check that fails. -/
def State.classify (s : State) (port : Port) (bytes : List Byte) (ending : FrameEnd) : Except PortCounter ReceivedFrame :=
  match readFrame port bytes ending with
  | .error c => .error c
  | .ok (unit, f) =>
    match s.checkFrame unit f with
    | some c => .error c
    | none => .ok f

/-- An accepted frame is handed whole to its owner, behind those handed before (R139). -/
def State.route (f : ReceivedFrame) (s : State) : State :=
  match f with
  | .reception c => { s with vote.inbox := s.vote.inbox ++ [c] }
  | .registration r => { s with loc.frames := s.loc.frames ++ [.registration r] }
  | .ack a => { s with loc.frames := s.loc.frames ++ [.ack a] }
  | .heartbeat h => { s with monitor.inbox := s.monitor.inbox ++ [h] }
  | .downlink d => { s with reach.inbox := s.reach.inbox ++ [.downlink d] }
  | .relay r => { s with reach.inbox := s.reach.inbox ++ [.relay r] }
  | .request r => { s with mgmt.inbox := s.mgmt.inbox ++ [r] }

/-- A frame taken by the classifier: counted once, and discarded or routed (R135, R136, R139). -/
def State.takeFrame (port : Port) (bytes : List Byte) (ending : FrameEnd) (s : State) : State :=
  match s.classify port bytes ending with
  | .error c => s.count (.port port c)
  | .ok f => (s.count (.port port .framesAccepted)).route f

/-- FRAME_RECEIVED (R135, R136, R139), on a live port. -/
def execFrameReceived (port : Port) (bytes : List Byte) (ending : FrameEnd) (s : State) : Host.Outcome State Fault Refusal :=
  if (s.portState port).live then .next (s.takeFrame port bytes ending) else .next s

end Sys2Proof.Machine
end

