-- ==== Sys2Proof/Machine/Location.lean ====
section
/-! DEFINITION. The location engine's commands (chapters 1 to 3): reports, registrations, acknowledgements, epochs and audit visits, site
changes and STOP at an entry, and what the three radio actions do. -/

namespace Sys2Proof.Machine

/-! ### Taking a report or a frame -/

/-- What the location engine takes from a site: nothing in LOAD (R6), nothing from an OFF site, which is counted (R80; log 20). -/
def State.intake (site : Nat) (f : State → State) (s : State) : State :=
  if s.mgmt.run = .load then s
  else if (s.site site).state = .off then s.count (.global .untrackedReports)
  else f s

/-- Set an entry's emergency flag (R13): its row's count follows, and an EMERGENCY notice is sent, if it was clear. -/
def State.setEmergency (slot : Nat) (s : State) : State :=
  match s.entry slot with
  | none => s
  | some e =>
    if e.emergency then s
    else
      (s.writeEntry slot (some { e with emergency := true })).notify .emergency e.radio e.serving e.serving e.talkgroup .none

/-- The candidate update of a report (R25 step 3; `force` as R57). -/
def State.scoreEntry (slot site : Nat) (a : Option Nat) (force : Bool) (s : State) : State :=
  s.modifyEntry slot fun e => { e with cands := updateCands (s.policy e) s.loc.epoch e.uses force site a e.cands }

/-- The recovery rule (R40). -/
def State.recover (slot site : Nat) (decoded : Bool) (s : State) : State :=
  match s.entry slot with
  | none => s
  | some e =>
    if e.state = .shadow ∧ e.serving = site ∧ decoded = true ∧ s.siteUp site = true then
      (s.writeEntry slot (some { e with state := .attached })).notify .recovered e.radio site site e.talkgroup .none
    else s

/-- The entry a decoded report creates (R8). -/
def newEntry (ranges : Tab ClassRange) (now : Epoch) (radio : RadioId) (site a : Nat) : Entry :=
  { radio := radio, cls := classOf ranges radio, state := .unattached, talkgroup := 0, serving := 0, number := 0, handover := none
    dwell := 0, shadow := 0, failed := none, emergency := false, cands := [newCandidate now site a] }

/-- Create an entry, if a slot can be had (R8, R10). -/
def State.createEntry (radio : RadioId) (site a : Nat) (s : State) : Option (Nat × State) :=
  match s.obtainSlot with
  | some (k, s1) => some (k, s1.writeEntry k (some (newEntry s.loc.ranges s.loc.epoch radio site a)))
  | none => none

/-- The adjusted quality of a report, none for NO_DECODE (R26, R27). -/
def State.adjusted (s : State) (site quality : Nat) : Option Nat := (rawQuality quality).map (adjust (s.site site).cfg.offset)

/-- A report applied in RUN (R7, R8, R25). -/
def State.applyReport (r : Report) (s : State) : State :=
  match s.lookup r.radio with
  | some (slot, _) =>
    let s1 := if r.emergency then s.setEmergency slot else s
    let a := s1.adjusted r.site r.quality
    ((s1.scoreEntry slot r.site a false).recover slot r.site a.isSome).roamDecision slot
  | none =>
    match s.adjusted r.site r.quality with
    | none => s
    | some a =>
      match s.createEntry r.radio r.site a with
      | some (slot, s1) => if r.emergency then s1.setEmergency slot else s1
      | none => s.count (.global .untrackedReports)

/-- REPORT (R25): the oldest report handed over is taken. -/
def execReport (s : State) : Host.Outcome State Fault Refusal :=
  match s.loc.reports with
  | [] => .next s
  | r :: rest => .next (({ s with loc.reports := rest } : State).locEvent fun t => t.intake r.site fun t => t.applyReport r)

/-! ### Registrations -/

/-- The unknown-talkgroup event of a registration that leaves the entry ATTACHED (R108). -/
def State.reportUnknown (slot : Nat) (s : State) : State :=
  match s.entry slot with
  | none => s
  | some e =>
    if e.state = .attached ∧ e.talkgroup ≠ 0 ∧ e.talkgroup ≠ 0xFFFF ∧ rowOf s.reach.rows e.talkgroup = none then
      s.reportAlert .unknownTalkgroup true
    else s

/-- A registration for a radio with no entry (R9). -/
def State.registerNew (r : Registration) (s : State) : State :=
  let a := adjust (s.site r.site).cfg.offset (registrationQuality r.quality)
  if r.reason = .powerOff then s.notify .deregister r.radio 0 0 r.talkgroup .register
  else if s.siteUp r.site then
    match s.createEntry r.radio r.site a with
    | some (slot, s1) =>
      let s2 := s1.modifyEntry slot fun e => { e with state := .attached, serving := r.site, talkgroup := r.talkgroup, dwell := 0 }
      (s2.notify .roam r.radio 0 r.site r.talkgroup .register).reportUnknown slot
    | none =>
      let s1 := s.issueDirective
        { site := r.site, kind := .refuse, radio := r.radio, talkgroup := r.talkgroup, other := 0, number := 0, tableFull := true }
      (s1.notify .refused r.radio 0 r.site r.talkgroup .register).count (.global .refusedRegistrations)
  else
    match s.createEntry r.radio r.site a with
    | some (_, s1) => s1
    | none => s.count (.global .untrackedReports)

/-- The directives of an entry that leaves service (R11, R12, R65). -/
def State.leaveSites (e : Entry) (s : State) : State :=
  match e.state, e.handover with
  | .unattached, _ => s
  | .attached, _ | .shadow, _ => s.release e 0
  | .moving, some h => (s.cancel e h).release e 0
  | .moving, none => s.release e 0

/-- A POWER_OFF registration for an entry (R11). -/
def State.powerOff (slot : Nat) (e : Entry) (s : State) : State :=
  let s1 := s.leaveSites e
  let s2 :=
    if e.emergency then s1.writeEntry slot (some { e with state := .unattached, serving := 0, handover := none })
    else s1.writeEntry slot none
  s2.notify .deregister e.radio e.serving 0 e.talkgroup .register

/-- A registration through the target commits the handover (R58, R62). -/
def State.commit (slot : Nat) (e : Entry) (h : Handover) (g : Talkgroup) (s : State) : State :=
  ((s.release e h.target).writeEntry slot
    (some { e with handover := none, state := .attached, serving := h.target, dwell := 0, talkgroup := g })).notify
    .roam e.radio e.serving h.target g h.origin.cause

/-- A registration through the serving site cancels the handover (R59, R62). -/
def State.stayAtServing (slot : Nat) (e : Entry) (h : Handover) (g : Talkgroup) (s : State) : State :=
  ((s.cancel e h).writeEntry slot (some { e with handover := none, state := .attached, talkgroup := g })).notify
    .roam e.radio e.serving e.serving g .register

/-- A registration through a third site (R60, R62). -/
def State.selfRoam (slot : Nat) (e : Entry) (h : Handover) (u : Nat) (g : Talkgroup) (s : State) : State :=
  (((s.cancel e h).release e u).writeEntry slot
    (some { e with handover := none, state := .attached, serving := u, dwell := 0, talkgroup := g })).notify
    .roam e.radio e.serving u g .self

/-- A registration for an entry that is not MOVING (R61, R62). -/
def State.registerIdle (slot : Nat) (e : Entry) (x : Nat) (g : Talkgroup) (s : State) : State :=
  match e.state with
  | .unattached =>
    (s.writeEntry slot (some { e with state := .attached, serving := x, dwell := 0, talkgroup := g })).notify
      .roam e.radio 0 x g .register
  | .attached | .shadow | .moving =>
    if e.serving = x then
      if e.state = .shadow then
        (s.writeEntry slot (some { e with state := .attached, talkgroup := g })).notify .recovered e.radio x x g .none
      else (s.writeEntry slot (some { e with talkgroup := g })).notify .roam e.radio x x g .register
    else
      ((s.release e x).writeEntry slot (some { e with state := .attached, serving := x, dwell := 0, talkgroup := g })).notify
        .roam e.radio e.serving x g .self

/-- The effect of a registration through an UP site for an entry (R25 step 5). -/
def State.registrationEffect (slot : Nat) (r : Registration) (s : State) : State :=
  match s.entry slot with
  | none => s
  | some e =>
    if r.reason = .powerOff then s.powerOff slot e
    else
      (match e.state, e.handover with
        | .moving, some h =>
          if r.site = h.target then s.commit slot e h r.talkgroup
          else if r.site = e.serving then s.stayAtServing slot e h r.talkgroup
          else s.selfRoam slot e h r.site r.talkgroup
        | _, _ => s.registerIdle slot e r.site r.talkgroup).reportUnknown slot

/-- A registration applied in RUN (R7, R9, R25, R57, R61). Through a site that is not UP it is only a report, and the roam decision that
ends a report runs for it too, the model's choice (log 33). -/
def State.applyRegistration (r : Registration) (s : State) : State :=
  match s.lookup r.radio with
  | none => s.registerNew r
  | some (slot, _) =>
    let a := adjust (s.site r.site).cfg.offset (registrationQuality r.quality)
    let s1 := s.scoreEntry slot r.site (some a) true
    let s2 := if s.siteUp r.site then s1.registrationEffect slot r else s1
    s2.roamDecision slot

/-- REGISTRATION (R61): the oldest frame handed over is taken, if it is a REGISTRATION. -/
def execRegistration (s : State) : Host.Outcome State Fault Refusal :=
  match s.loc.frames with
  | .registration r :: rest =>
    .next (({ s with loc.frames := rest } : State).locEvent fun t => t.intake r.site fun t => t.applyRegistration r)
  | _ => .next s

/-! ### Acknowledgements -/

/-- A DIRECTIVE_ACK applied in RUN (R7, R52). -/
def State.applyAck (a : DirectiveAck) (s : State) : State :=
  match s.lookup a.radio with
  | none => s.count (.global .staleAcks)
  | some (slot, e) =>
    match e.state, e.handover with
    | .moving, some h =>
      if a.site = h.target ∧ a.number = e.number then
        if a.accept then s.writeEntry slot (some { e with handover := some { h with accepted := true } })
        else s.abandon slot e h
      else s.count (.global .staleAcks)
    | _, _ => s.count (.global .staleAcks)

/-- DIRECTIVE_ACK (R52): the oldest frame handed over is taken, if it is a DIRECTIVE_ACK. -/
def execDirectiveAck (s : State) : Host.Outcome State Fault Refusal :=
  match s.loc.frames with
  | .ack a :: rest => .next (({ s with loc.frames := rest } : State).locEvent fun t => t.intake a.site fun t => t.applyAck a)
  | _ => .next s

/-! ### Epochs and audit visits -/

/-- The epoch length in ms (R15). -/
def Timing.epochLength (t : Timing) : Nat := 250 + 10 * t.epochAdjust

/-- EPOCH_BOUNDARY (R15, R17): in RUN, once the epoch length has passed and the audit pass is complete (log 4, log 19). -/
def execEpochBoundary (s : State) : Host.Outcome State Fault Refusal :=
  match s.loc.boundary with
  | some b =>
    if s.mgmt.run = .run ∧ b ≤ s.now ∧ s.loc.visits = [] then
      .next
        { s with
          loc.epoch := s.loc.epoch + 1
          loc.boundary := some (b + s.loc.timing.epochLength)
          loc.visits := s.loc.entries.map (·.1) }
    else .next s
  | none => .next s

/-- Step 1 of an audit visit: the counters (R18, R42, R49, R56). -/
def Entry.ageCounters (e : Entry) : Entry :=
  { e with
    dwell := holdInc e.dwell
    shadow := if e.state = .shadow then holdInc e.shadow else e.shadow
    handover := if e.state = .moving then e.handover.map fun h => { h with age := holdInc h.age } else e.handover
    failed := e.failed.bind fun f => if f.remaining ≤ 1 then none else some { f with remaining := f.remaining - 1 } }

/-- Step 2 of an audit visit: stale candidates (R18). -/
def Entry.dropStale (now : Epoch) (limit : Nat) (e : Entry) : Entry :=
  { e with cands := e.cands.filter fun c => e.uses c.site || decide (age now c.heardEpoch < limit) }

/-- A retry of a handover (R54). -/
def State.retry (slot : Nat) (e : Entry) (h : Handover) (s : State) : State :=
  let n := e.number + 1
  let s1 := s.issueDirective
    { site := h.target, kind := .serve, radio := e.radio, talkgroup := e.talkgroup, other := e.serving, number := n, tableFull := false }
  let s2 := s1.issueDirective
    { site := e.serving, kind := .move, radio := e.radio, talkgroup := e.talkgroup, other := h.target, number := n, tableFull := false }
  s2.writeEntry slot
    (some { e with number := n, handover := some { h with retries := h.retries + 1, age := 0, accepted := false } })

/-- A SHADOW entry is lost (R41). -/
def State.lose (slot : Nat) (e : Entry) (s : State) : State :=
  (s.writeEntry slot (some { e with state := .unattached, serving := 0 })).notify .lost e.radio e.serving 0 e.talkgroup .none

/-- Step 3 of an audit visit: the check of the entry's state (R18, R38, R41, R53). -/
def State.checkState (slot : Nat) (s : State) : State :=
  match s.entry slot with
  | none => s
  | some e =>
    let p := s.policy e
    match e.state, e.handover with
    | .attached, _ => if p.shadowHold ≤ servingHeardAge s.loc.epoch e then s.enterShadow slot e else s
    | .shadow, _ => if p.lostLimit ≤ e.shadow then s.lose slot e else s
    | .moving, some h =>
      if p.roamTimeout ≤ h.age then if h.retries < p.retryLimit then s.retry slot e h else s.abandon slot e h else s
    | .moving, none => s
    | .unattached, _ => s

/-- Step 5 of an audit visit: the purge (R19). -/
def State.purge (slot : Nat) (s : State) : State :=
  match s.entry slot with
  | none => s
  | some e =>
    if e.state = .unattached ∧ e.emergency = false ∧ s.loc.timing.purgeLimit ≤ newestHeardAge s.loc.epoch e then
      (s.writeEntry slot none).count (.global .purgedEntries)
    else s

/-- An audit visit (R18), its five steps in order. -/
def State.visit (slot : Nat) (s : State) : State :=
  let s1 := s.modifyEntry slot Entry.ageCounters
  let s2 := s1.modifyEntry slot (Entry.dropStale s.loc.epoch s.loc.timing.staleLimit)
  ((s2.checkState slot).roamDecision slot).purge slot

/-- AUDIT_VISIT (R17, R18): in RUN, of an entry of the visit set not yet visited. -/
def execAuditVisit (slot : Nat) (s : State) : Host.Outcome State Fault Refusal :=
  if s.mgmt.run = .run ∧ slot ∈ s.loc.visits then
    .next (({ s with loc.visits := s.loc.visits.filter (· != slot) } : State).locEvent fun t => t.visit slot)
  else .next s

/-! ### Site changes and STOP at an entry -/

/-- The oldest site change report for the entry in a slot. -/
def State.nextEntryReport (slot : Nat) (s : State) : Option EntryReport := s.loc.siteReports.find? fun r => r.slot == slot

/-- The state with that report taken. -/
def State.takeEntryReport (r : EntryReport) (s : State) : State := { s with loc.siteReports := s.loc.siteReports.erase r }

/-- The entry takes the report that a site left UP (R39, R63). -/
def State.siteLeftUp (slot site : Nat) (s : State) : State :=
  match s.entry slot with
  | none => s
  | some e =>
    match e.state, e.handover with
    | .attached, _ => if e.serving = site then s.enterShadow slot e else s
    | .moving, some h => if h.target = site then s.abandon slot e h else s
    | .moving, none | .shadow, _ | .unattached, _ => s

/-- SITE_LEFT_UP_ENTRY (R39, R63). -/
def execSiteLeftUpEntry (slot : Nat) (s : State) : Host.Outcome State Fault Refusal :=
  match s.nextEntryReport slot with
  | some r =>
    match r.news with
    | .leftUp => .next ((s.takeEntryReport r).locEvent fun t => t.siteLeftUp slot r.site)
    | .removed => .next s
  | none => .next s

/-- The candidate record of a removed site is deleted from the entry in a slot (R81, R82). -/
def State.dropSite (slot site : Nat) (s : State) : State := s.modifyEntry slot fun e => { e with cands := dropCand site e.cands }

/-- The entry takes the report of a site's removal (R81, R82). -/
def State.siteRemoved (slot site : Nat) (s : State) : State :=
  match s.entry slot with
  | none => s
  | some e =>
    match e.state, e.handover with
    | .moving, some h =>
      if h.target = site then (s.abandon slot e h).dropSite slot site
      else if e.serving = site then s.writeEntry slot (some { e with serving := 0, cands := dropCand site e.cands })
      else s.dropSite slot site
    | .attached, _ | .shadow, _ =>
      if e.serving = site then
        (s.writeEntry slot (some { e with state := .unattached, serving := 0, cands := dropCand site e.cands })).notify
          .lost e.radio site 0 e.talkgroup .none
      else s.dropSite slot site
    | .moving, none | .unattached, _ => s.dropSite slot site

/-- SITE_REMOVED_ENTRY (R81, R82). -/
def execSiteRemovedEntry (slot : Nat) (s : State) : Host.Outcome State Fault Refusal :=
  match s.nextEntryReport slot with
  | some r =>
    match r.news with
    | .removed => .next ((s.takeEntryReport r).locEvent fun t => t.siteRemoved slot r.site)
    | .leftUp => .next s
  | none => .next s

/-- STOP ends the handover of the entry in a slot (R64). -/
def State.endHandover (slot : Nat) (s : State) : State :=
  match s.entry slot with
  | none => s
  | some e =>
    match e.state, e.handover with
    | .moving, some h =>
      let next : RadioState := if e.serving = 0 then .unattached else if s.siteUp e.serving then .attached else .shadow
      let s1 :=
        ((s.cancel e h).writeEntry slot
          (some { e with handover := none, state := next, shadow := if next = .shadow then 0 else e.shadow })).notify
          .roamFailed e.radio e.serving h.target e.talkgroup h.origin.cause
      if next = .shadow then s1.notifyShadow e else s1
    | _, _ => s

/-- STOP_HANDOVER_END (R64). -/
def execStopHandoverEnd (slot : Nat) (s : State) : Host.Outcome State Fault Refusal :=
  if slot ∈ s.loc.stopReports then
    .next (({ s with loc.stopReports := s.loc.stopReports.filter (· != slot) } : State).locEvent fun t => t.endHandover slot)
  else .next s

/-! ### Radio actions (R149) -/

/-- FORCE_ROAM at the location engine (R51). -/
def State.forceRoam (radio : RadioId) (t : Nat) (s : State) : State × Result :=
  if !validRadio radio then (s, .badKey)
  else
    match s.lookup radio with
    | none => (s, .notFound)
    | some (slot, e) =>
      if s.mgmt.run = .load then (s, .wrongState)
      else if e.state ≠ .attached ∧ e.state ≠ .shadow then (s, .wrongState)
      else if !validSite t || t == e.serving || !s.siteUp t then (s, .badValue)
      else
        match s.startHandover slot e t .forced with
        | (s1, false) => (s1, .noRoom)
        | (s1, true) =>
          (s1.modifyEntry slot fun e' =>
            if (candOf t e'.cands).isSome then e'
            else
              { e' with
                cands := addCand (s.policy e) s.loc.epoch e.uses true
                  { site := t, score := 0, scoreEpoch := s.loc.epoch, heardEpoch := s.loc.epoch } e'.cands }, .ok)

/-- EVICT at the location engine (R12). -/
def State.evict (radio : RadioId) (s : State) : State × Result :=
  if !validRadio radio then (s, .badKey)
  else
    match s.lookup radio with
    | none => (s, .notFound)
    | some (slot, e) =>
      (((s.leaveSites e).writeEntry slot none).notify .deregister e.radio e.serving 0 e.talkgroup .forced, .ok)

/-- CLEAR_EMERGENCY at the location engine (R13). -/
def State.clearEmergency (radio : RadioId) (s : State) : State × Result :=
  match s.lookup radio with
  | none => (s, .notFound)
  | some (slot, e) => (if e.emergency then s.writeEntry slot (some { e with emergency := false }) else s, .ok)

end Sys2Proof.Machine
end

