-- ==== Sys2Proof/Machine/Operands.lean ====
section
/-! DEFINITION. The operands of management requests: the body of each request kind and table (R142, R153), read field by field. -/

namespace Sys2Proof.Machine

/-- The first byte of a body: a table or action code. -/
def Request.code (r : Request) : Option Nat := r.body.head?.map (·.toNat)

/-- Lengths of a table's write fields (table 9-8), for the tables that can be written (R145). -/
def writeLength : Nat → Option Nat
  | 1 => some 11
  | 2 => some 10
  | 3 => some 8
  | 4 => some 8
  | 5 => some 5
  | _ => none

/-- Lengths of a READ's body by table (tables 9-4 and 9-7). -/
def readLength : Nat → Option Nat
  | 1 | 2 | 3 | 4 | 5 | 7 | 8 => some 3
  | 6 => some 5
  | _ => none

/-- Lengths of a CONTROL's body by action (table 9-7). -/
def controlLength : Nat → Option Nat
  | 1 | 2 | 3 | 4 | 5 => some 1
  | _ => none

/-- Lengths of a RADIO_ACTION's body by action (table 9-7). -/
def actionLength : Nat → Option Nat
  | 1 | 2 | 3 => some 5
  | _ => none

/-- The body length that a request's code calls for; none for a code that is undefined for the kind. -/
def codeLength (k : RequestKind) (code : Nat) : Option Nat :=
  match k with
  | .read => readLength code
  | .write => (writeLength code).map (3 + ·)
  | .control => controlLength code
  | .radioAction => actionLength code
  | .identify | .status | .batch | .ackAlerts | .clearCounters | .reset => none

/-- The items of a BATCH: each a length byte and as many bytes (table 9-7). The fuel is the number of bytes left. -/
def batchItemsOf : Nat → List Byte → Option (List (List Byte))
  | _, [] => some []
  | 0, _ :: _ => none
  | n + 1, len :: rest =>
    if rest.length < len.toNat then none
    else (batchItemsOf n (rest.drop len.toNat)).map (rest.take len.toNat :: ·)

/-- The items of a BATCH body, if it is of the length it calls for and has 1 to 16 of them (R146, R153). -/
def Request.items (r : Request) : Option (List (List Byte)) :=
  match r.body with
  | [] => none
  | n :: rest =>
    match batchItemsOf rest.length rest with
    | some items => if items.length = n.toNat ∧ 1 ≤ items.length ∧ items.length ≤ Config.batchItems then some items else none
    | none => none

/-- The body length passes check 1 of R142. -/
def Request.lengthOk (r : Request) : Bool :=
  match r.kind with
  | .identify | .status | .clearCounters => r.body.length == 0
  | .ackAlerts => r.body.length == 8
  | .reset => r.body.length == 1
  | .batch => r.items.isSome
  | .read | .write | .control | .radioAction =>
    match r.code with
    | none => false
    | some c =>
      match codeLength r.kind c with
      | some n => r.body.length == n
      | none => true

/-- The kind's table or action code, if it names one, is defined (R142 check 3). -/
def Request.codeOk (r : Request) : Bool :=
  match r.kind with
  | .read | .write | .control | .radioAction =>
    match r.code with
    | none => false
    | some c => (codeLength r.kind c).isSome
  | .identify | .status | .batch | .ackAlerts | .clearCounters | .reset => true

/-- A row of a kind takes the request: it is of that kind, and names that table or action, or none that is defined (log 10). -/
def Request.isFor (r : Request) (k : RequestKind) (code : Nat) : Bool := decide (r.kind = k) && (r.code == some code || !r.codeOk)

/-- A signed byte (R153). -/
def signed (b : Byte) : Int := b.toInt

/-- A value held within a range. -/
def clamp (lo hi n : Nat) : Nat := max lo (min hi n)

/-- A signed value held within a range. -/
def clampInt (lo hi n : Int) : Int := max lo (min hi n)

/-- The admin field of a SITE write (R71): a value that is none of the four is KEEP. -/
def AdminAction.ofCode : Nat → AdminAction
  | 1 => .enable
  | 2 => .bar
  | 3 => .remove
  | _ => .keep

/-- The fields of a SITE write, clamped (R70), and its admin action. -/
def parseSiteFields : List Byte → Option (SiteConfig × AdminAction)
  | [off, bias, r1, r0, t1, t0, rec, cr, th, depth, adm] =>
    some
      ({ offset := clampInt (-16) 15 (signed off)
         bias := clampInt (-64) 63 (signed bias)
         roamInLimit := clamp 0 2048 (numberOf [r1, r0])
         stallLimit := clamp 100 60000 (numberOf [t1, t0])
         recoveryCount := clamp 1 7 rec.toNat
         initialCredit := clamp 1 255 cr.toNat
         releaseThreshold := clamp 1 32 th.toNat
         voiceDepth := clamp 8 96 depth.toNat }, AdminAction.ofCode adm.toNat)
  | _ => none

/-- The fields of a CLASS write, clamped (R44). -/
def parseClassFields : List Byte → Option ClassPolicy
  | [w, d, h, dw, f1, f0, hold, lost, tmo, retry] =>
    some
      { weight := clamp 1 16 w.toNat
        decay := clamp 0 63 d.toNat
        hysteresis := clamp 0 255 h.toNat
        dwell := clamp 0 31 dw.toNat
        floor := clamp 0 1008 (numberOf [f1, f0])
        shadowHold := clamp 1 31 hold.toNat
        lostLimit := clamp 1 255 lost.toNat
        roamTimeout := clamp 1 15 tmo.toNat
        retryLimit := clamp 0 3 retry.toNat }
  | _ => none

/-- Class codes (table 9-8). -/
def RadioClass.ofCode : Nat → Option RadioClass
  | 0 => some .ground
  | 1 => some .vehicle
  | 2 => some .aircraft
  | 3 => some .command
  | _ => none

/-- Class codes (table 9-8). -/
def RadioClass.code : RadioClass → Byte
  | .ground => 0
  | .vehicle => 1
  | .aircraft => 2
  | .command => 3

/-- The fields of a RANGE write: first, last, the class if its value is one of the four, and valid (R22). -/
def parseRangeFields : List Byte → Option (RadioId × RadioId × Option RadioClass × Bool)
  | [f2, f1, f0, l2, l1, l0, c, fl] => some (word24 f2 f1 f0, word24 l2 l1 l0, RadioClass.ofCode c.toNat, fl.getLsbD 0)
  | _ => none

/-- The fields of a GROUP write (R109). -/
def parseGroupFields : List Byte → Option GroupRow
  | [g1, g0, s0, s1, s2, s3, s4, fl] =>
    some { talkgroup := word16 g1 g0, pinned := siteSetOf s0 s1 s2 s3 s4, flood := fl.getLsbD 0, valid := fl.getLsbD 1 }
  | _ => none

/-- The fields of a TIMING write, clamped (R15, R46). -/
def parseTimingFields : List Byte → Option Timing
  | [adj, hold, hang, stale, purge] =>
    some
      { epochAdjust := clamp 0 63 adj.toNat
        voteHold := clamp 0 250 hold.toNat
        callHang := clamp 2 32 hang.toNat
        staleLimit := clamp 1 255 stale.toNat
        purgeLimit := clamp 1 255 purge.toNat }
  | _ => none

/-- The four fields of an ACK_ALERTS (R149): class mask, stall mask, reset-cause clear, and the enables if present. -/
structure AckFields where
  classes : BitVec 8
  stalls : SiteSet
  clearCauses : Bool
  enables : Option (BitVec 8)
  deriving DecidableEq, Repr

/-- The fields of an ACK_ALERTS. -/
def parseAckFields : List Byte → Option AckFields
  | [mask, s0, s1, s2, s3, s4, fl, en] =>
    some
      { classes := mask, stalls := siteSetOf s0 s1 s2 s3 s4, clearCauses := fl.getLsbD 0
        enables := if fl.getLsbD 1 then some en else none }
  | _ => none

/-- A READ's key (table 9-7), for every table but RADIO. -/
def parseKey : List Byte → Option Nat
  | [_, k1, k0] => some (numberOf [k1, k0])
  | _ => none

/-- A RADIO read's selector and value (table 9-7). -/
def parseSelector : List Byte → Option (Nat × BitVec 24)
  | [_, sel, v2, v1, v0] => some (sel.toNat, word24 v2 v1 v0)
  | _ => none

/-- A RADIO_ACTION's radio and target site (table 9-7). -/
def parseAction : List Byte → Option (RadioId × Nat)
  | [_, r2, r1, r0, t] => some (word24 r2 r1 r0, t.toNat)
  | _ => none

end Sys2Proof.Machine
end

