-- ==== Sys2Proof/Machine/Alerts.lean ====
section
/-! DEFINITION. Alerts: the reports the management unit takes (R154), the ALERT frames of a rise (R155), and acknowledgements (R156). -/

namespace Sys2Proof.Machine

/-- Build and offer one ALERT for each class whose flag has risen from `before`, in ascending class code, each with the flags as they
stand after all of them have risen (R155). -/
def State.raiseFrom (before : BitVec 8) (s : State) : State :=
  let rises := s.mgmt.flags &&& ~~~ before
  alertClasses.foldl
    (fun t c =>
      if hasClass rises c then t.offerCore (.alert { cls := c, flags := s.mgmt.flags, stalls := s.stallSet, epoch := s.loc.epoch })
      else t) s

/-- A report taken by the management unit (R154, R155). -/
def State.takeAlertReport (r : AlertReport) (s : State) : State :=
  ({ s with
      mgmt.flags := flagsAfterReport s.mgmt.flags s.mgmt.enables s.anyStall r
      mgmt.conditions := conditionsAfterReport s.mgmt.conditions r } : State).raiseFrom s.mgmt.flags

/-- ALERT_REPORT (R154): the oldest report of the class is taken, if there is one. -/
def execAlertReport (cls : AlertClass) (s : State) : Host.Outcome State Fault Refusal :=
  match s.mgmt.alertReports.find? fun r => decide (r.cls = cls) with
  | some r => .next (({ s with mgmt.alertReports := s.mgmt.alertReports.erase r } : State).takeAlertReport r)
  | none => .next s

/-- Step 1 of an acknowledgement at one site: its stall flag is cleared if the site is not STALLED (R84, R156). -/
def State.ackStall (x : Nat) (s : State) : State :=
  let r := s.site x
  if r.state = .stalled then s else s.putSite x { r with stall := false }

/-- Step 1 of an acknowledgement, at each site of the stall mask (R156). -/
def State.ackStalls (mask : SiteSet) (s : State) : State :=
  (List.range Config.siteCount).foldl (fun t i => if inSet mask (i + 1) then t.ackStall (i + 1) else t) s

/-- An ACK_ALERTS as the management unit takes it (R150, R156): the stall flags, the class flags, the enables, then the ALERT frames of
what rose, and the reset causes. -/
def State.acknowledge (f : AckFields) (s : State) : State :=
  let s1 := s.ackStalls f.stalls
  let conditions := setClass s.mgmt.conditions .siteStall s1.anyStall
  let flags1 := followStall s.mgmt.flags s.mgmt.enables s1.anyStall
  let flags2 := flagsAfterMask flags1 f.classes conditions
  let flags3 := match f.enables with
    | some en => flagsAfterEnables flags2 s.mgmt.enables en conditions
    | none => flags2
  let s2 : State :=
    { s1 with
      mgmt.conditions := conditions
      mgmt.flags := flags3
      mgmt.enables := f.enables.getD s.mgmt.enables
      mgmt.causes := if f.clearCauses then { powerOn := false, pin := false, command := false } else s.mgmt.causes }
  s2.raiseFrom s.mgmt.flags

end Sys2Proof.Machine
end

