-- ==== Sys2Proof/Machine/Reach.lean ====
section
/-! DEFINITION. The reach unit's commands (chapter 6): reach sets, DOWNLINK, RELAY, site change reports. -/

namespace Sys2Proof.Machine

/-- The sites of a GROUP burst for talkgroup g in RUN (R112), ascending. -/
def State.groupReach (s : State) (g : Talkgroup) : List Nat :=
  match rowOf s.reach.rows g with
  | none => s.upSites
  | some k =>
    if s.reach.floodOverride || (s.row k).flood || decide (0 < s.emergencyCount k) then s.upSites
    else s.upSites.filter fun x => inSet (s.row k).pinned x || decide (0 < s.memberCount k x)

/-- The serving site (when not 0) and target of an entry that is not UNATTACHED (R113 step 1). -/
def Entry.firstReach (e : Entry) (x : Nat) : Bool :=
  decide (e.state ≠ .unattached) &&
    ((x != 0 && x == e.serving) ||
      (decide (e.state = .moving) && match e.handover with | some h => x == h.target | none => false))

/-- The sites of an INDIVIDUAL burst in RUN (R113), ascending, and whether step 3 gave them. -/
def State.individualReach (s : State) (radio : RadioId) : List Nat × Bool :=
  match s.lookup radio with
  | none => (s.upSites, true)
  | some (_, e) =>
    let first := s.upSites.filter fun x => e.firstReach x
    if first ≠ [] then (first, false)
    else
      let second := s.upSites.filter fun x => (candOf x e.cands).isSome
      if second ≠ [] then (second, false) else (s.upSites, true)

/-- The reach set of a burst that is not a PING (R111 step 1, R112, R113), and whether it is an individual flood. -/
def State.reachSet (s : State) (d : Downlink) : List Nat × Bool :=
  match s.mgmt.run with
  | .load => (s.upSites, false)
  | .run =>
    match d.callType with
    | .all | .ping => (s.upSites, false)
    | .group =>
      let g : Talkgroup := d.dest.setWidth 16
      if g = 0xFFFF then (s.upSites, false) else (s.groupReach g, false)
    | .individual => s.individualReach d.dest

/-- Offer the copies of a burst in ascending site order (R111 step 4), and count those admitted. -/
def State.offerCopies (d : Downlink) : List Nat → State → State
  | [], s => s
  | x :: xs, s =>
    match s.offerVoice x { site := x, burst := d } with
    | (s1, .admitted) => State.offerCopies d xs (s1.count (.global .downlinkCopies))
    | (s1, _) => State.offerCopies d xs s1

/-- A DOWNLINK as the reach unit takes it (R111). -/
def State.takeDownlink (d : Downlink) (s : State) : State :=
  if d.callType = .ping then s.count (.global .downlinksDiscarded)
  else
    let (sites, flooded) := s.reachSet d
    let s1 := if flooded then s.count (.global .individualFloods) else s
    if sites = [] then s1.count (.global .unreachedBursts)
    else State.offerCopies d sites (s1.count (.global .downlinksReplicated))

/-- DOWNLINK (R111): the oldest frame handed over is taken, if it is a DOWNLINK. -/
def execDownlink (s : State) : Host.Outcome State Fault Refusal :=
  match s.reach.inbox with
  | .downlink d :: rest => .next (({ s with reach.inbox := rest } : State).takeDownlink d)
  | _ => .next s

/-- A RELAY as the reach unit takes it (R117). -/
def State.takeRelay (r : Relay) (s : State) : State :=
  if (s.site r.site).state = .barred then s.count (.global .relaysDiscarded) else (s.offerControl r.site (.relay r)).1

/-- RELAY (R117): the oldest frame handed over is taken, if it is a RELAY. -/
def execRelay (s : State) : Host.Outcome State Fault Refusal :=
  match s.reach.inbox with
  | .relay r :: rest => .next (({ s with reach.inbox := rest } : State).takeRelay r)
  | _ => .next s

/-- SITE_CHANGE_REACH (R78): the oldest report is taken. The reach unit reads each site's state from the site monitor at each burst
(R112, R114), so it keeps nothing of the report (log 14). -/
def execSiteChangeReach (s : State) : Host.Outcome State Fault Refusal := .next { s with reach.siteReports := s.reach.siteReports.tail }

/-- Turn the flood override on or off (R116). -/
def State.setFlood (on : Bool) (s : State) : State := { s with reach.floodOverride := on }

end Sys2Proof.Machine
end

