-- ==== Sys2Proof/Machine/Reads.lean ====
section
/-! DEFINITION. What reading requests are answered (R143, R144, table 9-9): a result and a body; a result that is not OK has an empty
body (R153). Reading changes nothing. -/

namespace Sys2Proof.Machine

/-- An answer: result and body. -/
abbrev Answer := Result × List Byte

/-- IDENTIFY (R143). -/
def State.identity (s : State) : Answer :=
  (.ok,
    bytes2 Config.partCode.toNat ++ [Config.revision, s.mgmt.unit.setWidth 8] ++ bytes2 Config.radioSlots ++
      [byte Config.siteCount] ++ bytes2 Config.groupRows ++ [byte Config.callRecords] ++ bytes2 Config.poolSlots)

/-- The reset causes as a byte (table 9-9). -/
def ResetCauses.toByte (c : ResetCauses) : Byte := flagByte [c.powerOn, c.pin, c.command]

/-- The run state's code (table 9-9). -/
def RunState.code : RunState → Byte
  | .load => 0
  | .run => 1

/-- UNATTACHED entries with emergency clear (R143). -/
def State.evictable (s : State) : Nat := s.loc.entries.countP fun p => decide (p.2.state = .unattached) && !p.2.emergency

/-- STATUS (R143, table 9-3), every figure read at this one moment (log 23). The body is the 27 bytes of the fields that table 9-9 lists,
where its Length column says 28, the model's choice (log 37). -/
def State.statusAnswer (s : State) : Answer :=
  let (tag, items, applied) : Nat × Nat × Nat := match s.mgmt.batch with
    | some b => (b.tag.toNat, b.items, b.applied)
    | none => (0, 0, 0)
  (.ok,
    [s.mgmt.run.code,
      flagByte [s.mgmt.lock, s.reach.floodOverride, s.classifier.sitePort.inSync, s.classifier.corePort.inSync,
        s.mgmt.batch.isSome],
      s.mgmt.causes.toByte, s.mgmt.flags, s.mgmt.enables] ++ siteSetBytes s.stallSet ++ bytes4 s.loc.epoch.toNat ++
      bytes2 s.loc.entries.length ++ bytes2 s.evictable ++ [byte s.vote.calls.length] ++ bytes2 s.poolFree ++
      bytes2 s.egress.core.length ++ bytes2 tag ++ [byte items, byte applied])

/-- A signed field as a byte (R153). -/
def signedByte (n : Int) : Byte := BitVec.ofInt 8 n

/-- The configured fields of a site (table 9-8). -/
def SiteConfig.encode (c : SiteConfig) : List Byte :=
  [signedByte c.offset, signedByte c.bias] ++ bytes2 c.roamInLimit ++ bytes2 c.stallLimit ++
    [byte c.recoveryCount, byte c.initialCredit, byte c.releaseThreshold, byte c.voiceDepth]

/-- Site state codes (table 9-9). -/
def SiteState.code : SiteState → Byte
  | .off => 0
  | .waiting => 1
  | .up => 2
  | .stalled => 3
  | .barred => 4

/-- The time since a site's last heartbeat, held at 65535, which also stands for none (R69, table 9-9). -/
def SiteRecord.sinceHeartbeat (r : SiteRecord) (now : Nat) : Nat :=
  match r.lastHeartbeat with
  | some t => min (now - t) 65535
  | none => 65535

/-- READ of the SITE table (R86). -/
def State.siteAnswer (key : Nat) (s : State) : Answer :=
  if validSite key then
    let r := s.site key
    (.ok,
      r.cfg.encode ++ [r.state.code] ++ bytes2 (r.sinceHeartbeat s.now) ++ bytes2 r.interval ++
        [byte r.run, flagByte [r.alarm, r.stall], byte (s.credits key)] ++ bytes2 (s.load key) ++
        [byte (s.controlLane key).length, byte (s.voiceLane key).length])
  else (.badKey, [])

/-- The fields of a class policy record (table 9-8). -/
def ClassPolicy.encode (p : ClassPolicy) : List Byte :=
  [byte p.weight, byte p.decay, byte p.hysteresis, byte p.dwell] ++ bytes2 p.floor ++
    [byte p.shadowHold, byte p.lostLimit, byte p.roamTimeout, byte p.retryLimit]

/-- READ of the CLASS table (R43, R144). -/
def State.classAnswer (key : Nat) (s : State) : Answer :=
  match RadioClass.ofCode key with
  | some c => (.ok, (s.loc.policies.policy c).encode)
  | none => (.badKey, [])

/-- READ of the RANGE table (R21, R144). -/
def State.rangeAnswer (key : Nat) (s : State) : Answer :=
  if key < Config.rangeRecords then
    let r := s.loc.ranges.atD key ClassRange.default
    (.ok, bytes3 r.first.toNat ++ bytes3 r.last.toNat ++ [r.cls.code, flagByte [r.valid]])
  else (.badKey, [])

/-- The static fields of a group row (table 9-8). -/
def GroupRow.encode (r : GroupRow) : List Byte := bytes2 r.talkgroup.toNat ++ siteSetBytes r.pinned ++ [flagByte [r.flood, r.valid]]

/-- READ of the GROUP table (R118). -/
def State.groupAnswer (key : Nat) (s : State) : Answer :=
  if key < Config.groupRows then
    (.ok,
      (s.row key).encode ++ (List.range Config.siteCount).flatMap (fun i => bytes2 (s.memberCount key (i + 1))) ++
        bytes2 (s.emergencyCount key))
  else (.badKey, [])

/-- READ of the TIMING table (R45, R144). -/
def State.timingAnswer (key : Nat) (s : State) : Answer :=
  let t := s.loc.timing
  if key = 0 then (.ok, [byte t.epochAdjust, byte t.voteHold, byte t.callHang, byte t.staleLimit, byte t.purgeLimit])
  else (.badKey, [])

/-- Entry state codes (table 9-9). -/
def RadioState.code : RadioState → Byte
  | .unattached => 0
  | .attached => 1
  | .moving => 2
  | .shadow => 3

/-- Origin codes (table 9-9). -/
def Origin.code : Origin → Byte
  | .directed => 0
  | .forced => 1

/-- A candidate of a RADIO read (R24, table 9-9). -/
def Candidate.encode (p : ClassPolicy) (now : Epoch) (c : Candidate) : List Byte :=
  [byte c.site] ++ bytes2 c.score ++ bytes2 (effScore p now c) ++ [byte (age now c.scoreEpoch), byte (age now c.heardEpoch)]

/-- The body of a RADIO read of an occupied slot (R24, table 9-9). -/
def State.radioBody (slot : Nat) (e : Entry) (s : State) : List Byte :=
  let ho : List Byte := match e.handover with
    | some h => [byte h.target, h.origin.code, byte h.retries, byte h.age, flagByte [h.accepted]]
    | none => [0, 0, 0, 0, 0]
  let ft : List Byte := match e.failed with
    | some f => [byte f.site, byte f.remaining]
    | none => [0, 0]
  bytes2 slot ++ bytes3 e.radio.toNat ++ [e.cls.code, e.state.code] ++ bytes2 e.talkgroup.toNat ++
    [byte e.serving, e.number, flagByte [e.handover.isSome, e.failed.isSome, e.emergency]] ++ ho ++ [byte e.dwell, byte e.shadow] ++
    ft ++ bytes4 s.loc.epoch.toNat ++ [byte e.cands.length] ++ e.cands.flatMap (Candidate.encode (s.policy e) s.loc.epoch)

/-- READ of the RADIO table (R24): by radio ID or by slot; another selector is BAD_KEY (R153). -/
def State.radioAnswer (selector : Nat) (value : BitVec 24) (s : State) : Answer :=
  if selector = 0 then
    if validRadio value then
      match s.lookup value with
      | some (slot, e) => (.ok, s.radioBody slot e)
      | none => (.notFound, [])
    else (.badKey, [])
  else if selector = 1 then
    if value.toNat < Config.radioSlots then
      match s.entry value.toNat with
      | some e => (.ok, s.radioBody value.toNat e)
      | none => (.notFound, [])
    else (.badKey, [])
  else (.badKey, [])

/-- The body of a CALL read of a record in use: the 17 bytes of table 9-9. R104 speaks of every field but the payload, and the layout
has no place for the last-activity time, which is left out, the model's choice (log 35). -/
def CallRecord.encode (r : CallRecord) (now : Nat) : List Byte :=
  bytes3 r.radio.toNat ++ [r.tag, r.callType.code] ++ bytes3 r.dest.toNat ++
    [r.seq, flagByte [r.isOpen, r.best.isSome, r.endSeen, r.emergencySeen]] ++
    bytes2 (if r.isOpen then r.deadline - now else 0) ++
    (match r.best with | some b => [byte b.site, byte b.quality] | none => [0, 0]) ++ [byte r.copies] ++ bytes2 (r.hangDeadline - now)

/-- READ of the CALL table (R104). -/
def State.callAnswer (key : Nat) (s : State) : Answer :=
  if key < Config.callRecords then
    match s.vote.calls.at? key with
    | some r => (.ok, r.encode s.now)
    | none => (.notFound, [])
  else (.badKey, [])

/-- READ of COUNTERS (R157): each counter of the set, then the wrap flags. -/
def State.countersAnswer (key : Nat) (s : State) : Answer :=
  match counterSetSize key with
  | some n =>
    let set := counterSet s.mgmt.counters key n
    (.ok, set.flatMap (fun c => bytes4 c.value.toNat) ++ wrapBytes (set.map (·.wrapped)))
  | none => (.badKey, [])

end Sys2Proof.Machine
end

