-- ==== Sys2Proof/Machine/Resets.lean ====
section
/-! DEFINITION. Resets (R150, R152, and each block's reset table). -/

namespace Sys2Proof.Machine

/-- The reset causes after a reset (R150). -/
def ResetCauses.after (c : ResetCauses) : ResetKind → ResetCauses
  | .powerOn => { powerOn := true, pin := false, command := false }
  | .pin => { c with pin := true }
  | .command => { c with command := true }

/-- The site state after a reset that keeps the configuration (R87). -/
def SiteState.afterReset : SiteState → SiteState
  | .off => .off
  | .barred => .barred
  | .waiting | .up | .stalled => .waiting

/-- A site record after a reset that keeps the configuration (R87). -/
def SiteRecord.afterReset (r : SiteRecord) : SiteRecord :=
  { r with state := r.state.afterReset, lastHeartbeat := none, interval := 0, run := 0, alarm := false, stall := false }

/-- LOCK after a reset: clear at power-on, else kept (R152 step 4). -/
def lockAfter (k : ResetKind) (lock : Bool) : Bool :=
  match k with
  | .powerOn => false
  | .pin | .command => lock

/-- A reset of any kind, with the strap level read at it (R152). With LOCK set afterwards the configuration is kept and the part is in
RUN; otherwise everything returns to its power-on value and the part is in LOAD. What the blocks had handed each other is discarded
(log 8). -/
def State.applyReset (k : ResetKind) (straps : BitVec 6) (s : State) : State :=
  let keep := lockAfter k s.mgmt.lock
  let d := State.reset
  { d with
    pending := s.pending
    now := s.now
    straps := straps
    monitor.sites := if keep then s.monitor.sites.remap SiteRecord.default SiteRecord.afterReset else []
    loc.boundary := if keep then some (s.now + s.loc.timing.epochLength) else none
    loc.policies := if keep then s.loc.policies else d.loc.policies
    loc.ranges := if keep then s.loc.ranges else d.loc.ranges
    loc.timing := if keep then s.loc.timing else d.loc.timing
    reach.rows := if keep then s.reach.rows.filter fun p => p.2.valid else []
    mgmt.run := if keep then .run else .load
    mgmt.lock := keep
    mgmt.causes := s.mgmt.causes.after k
    mgmt.unit := straps
    mgmt.enables := if keep then s.mgmt.enables else d.mgmt.enables }

/-- POWER_ON_RESET (R152). -/
def execPowerOnReset (straps : BitVec 6) (s : State) : Host.Outcome State Fault Refusal := .next (s.applyReset .powerOn straps)

/-- PIN_RESET (R152). -/
def execPinReset (straps : BitVec 6) (s : State) : Host.Outcome State Fault Refusal := .next (s.applyReset .pin straps)

end Sys2Proof.Machine
end

