-- ==== Sys2Proof/Machine/Sites.lean ====
section
/-! DEFINITION. The site monitor's commands (chapter 4): heartbeats, stalls and the admin actions. -/

namespace Sys2Proof.Machine

/-! ### Reports to the other blocks -/

/-- A site became UP: reported to the reach unit and the egress scheduler (R72, R74). The location engine is told too, and does nothing
at this change (R40, R74). -/
def State.reportUp (x : Nat) (s : State) : State :=
  { s with
    reach.siteReports := s.reach.siteReports ++ [{ site := x, up := true }]
    egress.reports := s.egress.reports ++ [{ site := x, news := .up }] }

/-- A site left UP: reported to the reach unit (R72). -/
def State.reportLeftReach (x : Nat) (s : State) : State :=
  { s with reach.siteReports := s.reach.siteReports ++ [{ site := x, up := false }] }

/-- The egress scheduler is told to flush a site's lanes (R78, R79, R80). -/
def State.orderFlush (x : Nat) (s : State) : State := { s with egress.reports := s.egress.reports ++ [{ site := x, news := .flush }] }

/-- The entries that a site change concerns (R39, R63, R81, R82): served by the site or moving to it, and for a removal also those that
hold a candidate record for it. -/
def Entry.concernedBy (e : Entry) (x : Nat) (news : SiteNews) : Bool :=
  match news with
  | .leftUp => decide (e.state ≠ .unattached) && e.uses x
  | .removed => e.uses x || (candOf x e.cands).isSome

/-- The location engine is told of a site's change: each entry it concerns has an event of its own to take (R72, R80; log 15). -/
def State.reportEntries (x : Nat) (news : SiteNews) (s : State) : State :=
  { s with
    loc.siteReports :=
      s.loc.siteReports ++
        (s.loc.entries.filter fun p => p.2.concernedBy x news).map fun p => { slot := p.1, site := x, news := news } }

/-! ### Heartbeats -/

/-- The recovery run after a heartbeat in WAITING or STALLED (R74). -/
def SiteRecord.runAfter (r : SiteRecord) (now : Nat) : Nat :=
  match r.lastHeartbeat with
  | some t => if min (now - t) 65535 < r.cfg.stallLimit then r.run + 1 else 1
  | none => 1

/-- Steps 1, 2 and 4 of a heartbeat: interval, time and alarm (R73). -/
def SiteRecord.beat (r : SiteRecord) (now : Nat) (alarm : Bool) : SiteRecord :=
  { r with
    interval := match r.lastHeartbeat with | some t => min (now - t) 65535 | none => r.interval
    lastHeartbeat := some now
    alarm := alarm }

/-- The credits of a site set. -/
def State.putCredits (x n : Nat) (s : State) : State := { s with egress.credits := s.egress.credits.put 0 x n }

/-- Returned credits are added, holding at 255 (R126). -/
def State.returnCredits (x n : Nat) (s : State) : State := s.putCredits x (min 255 (s.credits x + n))

/-- Step 5 of a heartbeat (R73 to R76): `r0` is the record before the heartbeat. -/
def State.workState (x : Nat) (r0 : SiteRecord) (s : State) : State :=
  match r0.state with
  | .waiting | .stalled =>
    let run := r0.runAfter s.now
    if r0.cfg.recoveryCount ≤ run then
      (((s.putSite x { s.site x with state := .up, run := 0 }).putCredits x r0.cfg.initialCredit).reportUp x).count
        (.site x .recoveries)
    else s.putSite x { s.site x with run := run }
  | .up | .barred | .off => s

/-- A heartbeat as the site monitor takes it (R73). -/
def State.takeHeartbeat (h : Heartbeat) (s : State) : State :=
  let r := s.site h.site
  if r.state = .off then s.count (.port .site .unknownSite)
  else
    let s1 := s.putSite h.site (r.beat s.now h.alarm)
    let s2 := (s1.returnCredits h.site h.credits).workState h.site r
    (s2.count (.site h.site .heartbeats)).reportChange .siteAlarm s.anyAlarm s2.anyAlarm

/-- HEARTBEAT (R73): the oldest heartbeat handed over is taken. -/
def execHeartbeat (s : State) : Host.Outcome State Fault Refusal :=
  match s.monitor.inbox with
  | [] => .next s
  | h :: rest => .next (({ s with monitor.inbox := rest } : State).takeHeartbeat h)

/-! ### Stalls -/

/-- The stall deadline of a site (R75): its last heartbeat time plus its stall limit. -/
def SiteRecord.stallDeadline (r : SiteRecord) : Option Nat := r.lastHeartbeat.map (· + r.cfg.stallLimit)

/-- The stall deadline has passed. -/
def SiteRecord.stallDue (r : SiteRecord) (now : Nat) : Bool :=
  match r.stallDeadline with
  | some d => decide (d ≤ now)
  | none => false

/-- An UP site stalls (R75, R78, R84). -/
def State.stallSite (x : Nat) (s : State) : State :=
  let r := s.site x
  let s1 := ((s.putSite x { r with state := .stalled, run := 0, stall := true }).count (.site x .stalls))
  (((s1.reportEntries x .leftUp).reportLeftReach x).orderFlush x).reportChange .siteStall s.anyStall s1.anyStall

/-- STALL_EXPIRY (R75): the site is UP and its deadline has passed; otherwise nothing changes. -/
def execStallExpiry (site : Nat) (s : State) : Host.Outcome State Fault Refusal :=
  if (s.site site).state = .up ∧ (s.site site).stallDue s.now = true then .next (s.stallSite site) else .next s

/-! ### Admin actions (R71) -/

/-- The ENABLE action (R71). -/
def State.enableSite (x : Nat) (s : State) : State :=
  let r := s.site x
  match r.state with
  | .off => s.putSite x { r with state := .waiting, lastHeartbeat := none, interval := 0, run := 0 }
  | .barred => s.putSite x { r with state := .waiting, run := 0 }
  | .waiting | .up | .stalled => s

/-- The BAR action (R71, R79). -/
def State.barSite (x : Nat) (s : State) : State :=
  let r := s.site x
  let barred := s.putSite x { r with state := .barred, run := 0 }
  match r.state with
  | .up => ((barred.reportEntries x .leftUp).reportLeftReach x).orderFlush x
  | .waiting | .stalled => barred.orderFlush x
  | .off | .barred => s

/-- The REMOVE action (R71, R80, R126). -/
def State.removeSite (x : Nat) (s : State) : State :=
  let r := s.site x
  if r.state = .off then s
  else
    let s1 := s.putSite x { r with state := .off, lastHeartbeat := none, interval := 0, run := 0, alarm := false }
    let s2 := ((s1.putCredits x 0).orderFlush x).reportEntries x .removed
    let s3 := if r.state = .up then s2.reportLeftReach x else s2
    s3.reportChange .siteAlarm s.anyAlarm s1.anyAlarm

/-- An admin action applied to a site's record (R71). -/
def State.admin (x : Nat) (a : AdminAction) (s : State) : State :=
  match a with
  | .keep => s
  | .enable => s.enableSite x
  | .bar => s.barSite x
  | .remove => s.removeSite x

/-- ENABLE (R71), of a site the part has (log 9). -/
def execEnable (site : Nat) (s : State) : Host.Outcome State Fault Refusal :=
  if validSite site then .next (s.admin site .enable) else .next s

/-- BAR (R71, R79), of a site the part has (log 9). -/
def execBar (site : Nat) (s : State) : Host.Outcome State Fault Refusal :=
  if validSite site then .next (s.admin site .bar) else .next s

/-- REMOVE (R71, R80), of a site the part has (log 9). -/
def execRemove (site : Nat) (s : State) : Host.Outcome State Fault Refusal :=
  if validSite site then .next (s.admin site .remove) else .next s

end Sys2Proof.Machine
end

