-- ==== Sys2Proof/Machine/Management.lean ====
section
/-! DEFINITION. The management unit's commands (chapter 9): the request queue, the checks of R142, and the effect of every request. -/

namespace Sys2Proof.Machine

/-! ### Taking and completing requests -/

/-- MGMT_REQUEST (R141): the oldest accepted request enters the request queue of 4, or is discarded and counted. -/
def execMgmtRequest (s : State) : Host.Outcome State Fault Refusal :=
  match s.mgmt.inbox with
  | [] => .next s
  | r :: rest =>
    if s.mgmt.requests.length < Config.requestDepth then
      .next { s with mgmt.inbox := rest, mgmt.requests := s.mgmt.requests ++ [r] }
    else .next (({ s with mgmt.inbox := rest } : State).count (.global .requestOverflows))

/-- The request is one a batch in progress holds off (R142 check 2). -/
def Request.heldByBatch (r : Request) : Bool :=
  match r.kind with
  | .write | .batch | .control | .radioAction | .clearCounters => true
  | .identify | .status | .read | .ackAlerts | .reset => false

/-- The request is one LOCK refuses (R142 check 4, R148): a WRITE, a BATCH, CONTROL START or STOP. -/
def Request.heldByLock (r : Request) : Bool :=
  match r.kind with
  | .write | .batch => true
  | .control => r.code == some 1 || r.code == some 2
  | .identify | .status | .read | .ackAlerts | .clearCounters | .radioAction | .reset => false

/-- The answer to a request whose table or action code is not defined for its kind (R142 check 3). -/
def Request.badCode (r : Request) : Result :=
  match r.kind with
  | .read | .write => .badTable
  | .identify | .status | .batch | .control | .ackAlerts | .clearCounters | .radioAction | .reset => .badValue

/-- Checks 1 to 4 of R142, in order: the result of the first that fails. -/
def State.precheck (s : State) (r : Request) : Option Result :=
  if !r.lengthOk then some .badValue
  else if s.mgmt.batch.isSome && r.heldByBatch then some .batchActive
  else if !r.codeOk then some r.badCode
  else if s.mgmt.lock && r.heldByLock then some .locked
  else none

/-- The body of a refusal: empty, but a BATCH's response always carries its count of items applied (R153). -/
def Request.refusalBody (r : Request) : List Byte := if r.kind = .batch then [0] else []

/-- Complete the request at the front of the queue, if it is for this row (R141, R142): its effect answers with a result and body, or
with none for a BATCH that starts. -/
def State.complete (isFor : Request → Bool) (effect : Request → State → State × Option Answer) (s : State) : State :=
  match s.mgmt.requests with
  | [] => s
  | r :: rest =>
    if isFor r then
      let s1 : State := { s with mgmt.requests := rest }
      match s1.precheck r with
      | some res => s1.respond r.tag res r.refusalBody
      | none =>
        match effect r s1 with
        | (s2, some (res, body)) => s2.respond r.tag res body
        | (s2, none) => s2
    else s

/-- The request is of a kind that has one row. -/
def Request.isKind (k : RequestKind) (r : Request) : Bool := decide (r.kind = k)

/-- The request is for the row of a kind's table or action. -/
def Request.isRow (k : RequestKind) (code : Nat) (r : Request) : Bool := r.isFor k code

/-- An effect that only reads, with the operand its body gives. -/
def reading {α : Type} (parse : List Byte → Option α) (answer : α → State → Answer) (r : Request) (s : State) :
    State × Option Answer :=
  match parse r.body with
  | some a => (s, some (answer a s))
  | none => (s, some (.badValue, []))

/-- An effect that changes the state and answers with a bare result. -/
def changing {α : Type} (parse : List Byte → Option α) (effect : α → State → State × Result) (r : Request) (s : State) :
    State × Option Answer :=
  match parse r.body with
  | some a => let (t, res) := effect a s; (t, some (res, []))
  | none => (s, some (.badValue, []))

/-! ### IDENTIFY, STATUS and READ -/

/-- IDENTIFY (R143). -/
def execIdentify (s : State) : Host.Outcome State Fault Refusal :=
  .next (s.complete (Request.isKind .identify) fun _ t => (t, some t.identity))

/-- STATUS (R143). -/
def execStatus (s : State) : Host.Outcome State Fault Refusal :=
  .next (s.complete (Request.isKind .status) fun _ t => (t, some t.statusAnswer))

/-- READ_SITE (R86). -/
def execReadSite (s : State) : Host.Outcome State Fault Refusal := .next (s.complete (Request.isRow .read 1) (reading parseKey State.siteAnswer))

/-- READ_CLASS (R144). -/
def execReadClass (s : State) : Host.Outcome State Fault Refusal :=
  .next (s.complete (Request.isRow .read 2) (reading parseKey State.classAnswer))

/-- READ_RANGE (R144). -/
def execReadRange (s : State) : Host.Outcome State Fault Refusal :=
  .next (s.complete (Request.isRow .read 3) (reading parseKey State.rangeAnswer))

/-- READ_GROUP (R118). -/
def execReadGroup (s : State) : Host.Outcome State Fault Refusal :=
  .next (s.complete (Request.isRow .read 4) (reading parseKey State.groupAnswer))

/-- READ_TIMING (R144). -/
def execReadTiming (s : State) : Host.Outcome State Fault Refusal :=
  .next (s.complete (Request.isRow .read 5) (reading parseKey State.timingAnswer))

/-- READ_RADIO (R24). -/
def execReadRadio (s : State) : Host.Outcome State Fault Refusal :=
  .next (s.complete (Request.isRow .read 6) (reading parseSelector fun p t => t.radioAnswer p.1 p.2))

/-- READ_CALL (R104). -/
def execReadCall (s : State) : Host.Outcome State Fault Refusal :=
  .next (s.complete (Request.isRow .read 7) (reading parseKey State.callAnswer))

/-- READ_COUNTERS (R157). -/
def execReadCounters (s : State) : Host.Outcome State Fault Refusal :=
  .next (s.complete (Request.isRow .read 8) (reading parseKey State.countersAnswer))

/-! ### WRITE -/

/-- A SITE record written by its owner (R70, R71). -/
def State.writeSiteRecord (key : Nat) (fields : List Byte) (s : State) : State × Result :=
  match parseSiteFields fields with
  | none => (s, .badValue)
  | some (cfg, a) => if validSite key then ((s.putSite key { s.site key with cfg := cfg }).admin key a, .ok) else (s, .badKey)

/-- A CLASS record written by its owner (R44). -/
def State.writeClassRecord (key : Nat) (fields : List Byte) (s : State) : State × Result :=
  match parseClassFields fields with
  | none => (s, .badValue)
  | some p =>
    match RadioClass.ofCode key with
    | some c => ({ s with loc.policies := s.loc.policies.withPolicy c p }, .ok)
    | none => (s, .badKey)

/-- A RANGE record written by its owner (R22). -/
def State.writeRangeRecord (key : Nat) (fields : List Byte) (s : State) : State × Result :=
  match parseRangeFields fields with
  | none => (s, .badValue)
  | some (first, last, cls, valid) =>
    if Config.rangeRecords ≤ key then (s, .badKey)
    else if !validRadio first || !validRadio last || decide (last < first) then (s, .badValue)
    else
      match cls with
      | none => (s, .badValue)
      | some c =>
        ({ s with loc.ranges := s.loc.ranges.put ClassRange.default key { first := first, last := last, cls := c, valid := valid } },
          .ok)

/-- The counts of a row computed afresh from the entries (R110). -/
def State.recount (key : Nat) (g : Talkgroup) (s : State) : State :=
  { s with
    loc.members :=
      s.loc.members.put [] key
        (s.loc.entries.foldl (fun t p => if p.2.talkgroup = g then raiseAt p.2.sites t else t) [])
    loc.emergencies :=
      s.loc.emergencies.put 0 key (s.loc.entries.countP fun p => decide (p.2.talkgroup = g) && p.2.emergency) }

/-- The row's member counts or emergency count are not all 0 (R109). -/
def State.rowInUse (key : Nat) (s : State) : Bool :=
  (s.memberRow key).any (fun p => decide (p.2 ≠ 0)) || decide (s.emergencyCount key ≠ 0)

/-- The checks of a GROUP write after its row number (R109, table 6-3), in order. -/
def State.groupCheck (key : Nat) (new : GroupRow) (s : State) : Option Result :=
  let old := s.row key
  if new.valid && (new.talkgroup == 0 || new.talkgroup == 0xFFFF) then some .badValue
  else if new.valid && s.reach.rows.any (fun p => p.1 != key && p.2.valid && p.2.talkgroup == new.talkgroup) then some .badValue
  else if old.valid && s.rowInUse key && (!new.valid || new.talkgroup != old.talkgroup) then some .inUse
  else none

/-- A GROUP row written by the location engine (R109, R110). -/
def State.writeGroupRecord (key : Nat) (fields : List Byte) (s : State) : State × Result :=
  match parseGroupFields fields with
  | none => (s, .badValue)
  | some new =>
    if Config.groupRows ≤ key then (s, .badKey)
    else
      match s.groupCheck key new with
      | some res => (s, res)
      | none =>
        let old := s.row key
        let s1 : State := { s with reach.rows := s.reach.rows.put GroupRow.default key new }
        if new.valid && (!old.valid || new.talkgroup != old.talkgroup) then (s1.recount key new.talkgroup, .ok) else (s1, .ok)

/-- The TIMING record written by its owner (R46). -/
def State.writeTimingRecord (key : Nat) (fields : List Byte) (s : State) : State × Result :=
  match parseTimingFields fields with
  | none => (s, .badValue)
  | some t => if key = 0 then ({ s with loc.timing := t }, .ok) else (s, .badKey)

/-- A WRITE's key and fields (table 9-7). -/
def parseWrite : List Byte → Option (Nat × List Byte)
  | _ :: k1 :: k0 :: fields => some (numberOf [k1, k0], fields)
  | _ => none

/-- WRITE_SITE (R70). -/
def execWriteSite (s : State) : Host.Outcome State Fault Refusal :=
  .next (s.complete (Request.isRow .write 1) (changing parseWrite fun p t => t.writeSiteRecord p.1 p.2))

/-- WRITE_CLASS (R44). -/
def execWriteClass (s : State) : Host.Outcome State Fault Refusal :=
  .next (s.complete (Request.isRow .write 2) (changing parseWrite fun p t => t.writeClassRecord p.1 p.2))

/-- WRITE_RANGE (R22). -/
def execWriteRange (s : State) : Host.Outcome State Fault Refusal :=
  .next (s.complete (Request.isRow .write 3) (changing parseWrite fun p t => t.writeRangeRecord p.1 p.2))

/-- WRITE_GROUP (R109, R110). -/
def execWriteGroup (s : State) : Host.Outcome State Fault Refusal :=
  .next (s.complete (Request.isRow .write 4) (changing parseWrite fun p t => t.writeGroupRecord p.1 p.2))

/-- WRITE_TIMING (R46). -/
def execWriteTiming (s : State) : Host.Outcome State Fault Refusal :=
  .next (s.complete (Request.isRow .write 5) (changing parseWrite fun p t => t.writeTimingRecord p.1 p.2))

/-! ### BATCH -/

/-- A BATCH that passes R142 starts (R146): no response yet. -/
def State.startBatch (r : Request) (s : State) : State × Option Answer :=
  match r.items with
  | some items => ({ s with mgmt.batch := some { tag := r.tag, items := items.length, applied := 0, rest := items } }, none)
  | none => (s, some (.badValue, [0]))

/-- BATCH (R146). -/
def execBatch (s : State) : Host.Outcome State Fault Refusal := .next (s.complete (Request.isKind .batch) State.startBatch)

/-- A record written by the owner of a table (R145). -/
def State.writeRecord (table key : Nat) (fields : List Byte) (s : State) : State × Result :=
  match table with
  | 1 => s.writeSiteRecord key fields
  | 2 => s.writeClassRecord key fields
  | 3 => s.writeRangeRecord key fields
  | 4 => s.writeGroupRecord key fields
  | 5 => s.writeTimingRecord key fields
  | _ => (s, .badTable)

/-- A batch item checked and applied (R146, R153): its table code, its length, then the owner's own checks (log 22). -/
def State.applyItem (item : List Byte) (s : State) : State × Result :=
  match item with
  | [] => (s, .badValue)
  | code :: rest =>
    match writeLength code.toNat with
    | none => (s, .badTable)
    | some n =>
      match rest with
      | k1 :: k0 :: fields => if fields.length = n then s.writeRecord code.toNat (numberOf [k1, k0]) fields else (s, .badValue)
      | _ => (s, .badValue)

/-- End the batch with its response (R146). -/
def State.endBatch (tag : BitVec 16) (applied : Nat) (res : Result) (s : State) : State :=
  ({ s with mgmt.batch := none } : State).respond tag res [byte applied]

/-- BATCH_ITEM (R146): the next item of the batch in progress; a failed or last item ends the batch. -/
def execBatchItem (s : State) : Host.Outcome State Fault Refusal :=
  match s.mgmt.batch with
  | none => .next s
  | some b =>
    match b.rest with
    | [] => .next (s.endBatch b.tag b.applied .ok)
    | item :: rest =>
      match s.applyItem item with
      | (t, .ok) =>
        if rest = [] then .next (t.endBatch b.tag (b.applied + 1) .ok)
        else .next { t with mgmt.batch := some { b with applied := b.applied + 1, rest := rest } }
      | (t, res) => .next (t.endBatch b.tag b.applied res)

/-! ### CONTROL -/

/-- The change to RUN (R15, R147). -/
def State.startRun (s : State) : State :=
  if s.mgmt.run = .run then s
  else { s with mgmt.run := .run, loc.boundary := some (s.now + s.loc.timing.epochLength) }

/-- The slots whose entry is MOVING (R64). -/
def State.movingSlots (s : State) : List Nat := (s.loc.entries.filter fun p => decide (p.2.state = .moving)).map (·.1)

/-- The change to LOAD (R15, R17, R147): reported to the vote unit (R102) and to each MOVING entry (R64). A report that finds an earlier
one not yet taken is one with it, the model's choice (log 38). -/
def State.stopRun (s : State) : State :=
  if s.mgmt.run = .load then s
  else
    { s with
      mgmt.run := .load
      loc.boundary := none
      loc.visits := []
      loc.stopReports := s.loc.stopReports ++ s.movingSlots.filter fun k => !s.loc.stopReports.contains k
      vote.stopReport := true }

/-- A CONTROL request answered OK with its effect. -/
def controlling (f : State → State) (_ : Request) (s : State) : State × Option Answer := (f s, some (.ok, []))

/-- START (R147). -/
def execStart (s : State) : Host.Outcome State Fault Refusal := .next (s.complete (Request.isRow .control 1) (controlling State.startRun))

/-- STOP (R147). -/
def execStop (s : State) : Host.Outcome State Fault Refusal := .next (s.complete (Request.isRow .control 2) (controlling State.stopRun))

/-- LOCK (R148). -/
def execLock (s : State) : Host.Outcome State Fault Refusal :=
  .next (s.complete (Request.isRow .control 3) (controlling fun t => { t with mgmt.lock := true }))

/-- FLOOD_ON (R116). -/
def execFloodOn (s : State) : Host.Outcome State Fault Refusal :=
  .next (s.complete (Request.isRow .control 4) (controlling (State.setFlood true)))

/-- FLOOD_OFF (R116). -/
def execFloodOff (s : State) : Host.Outcome State Fault Refusal :=
  .next (s.complete (Request.isRow .control 5) (controlling (State.setFlood false)))

/-! ### ACK_ALERTS, CLEAR_COUNTERS, RADIO_ACTION and RESET -/

/-- ACK_ALERTS (R149, R156): the response is offered after the ALERT frames of the event. -/
def execAckAlerts (s : State) : Host.Outcome State Fault Refusal :=
  .next (s.complete (Request.isKind .ackAlerts) (changing parseAckFields fun f t => (t.acknowledge f, .ok)))

/-- CLEAR_COUNTERS (R149, R158). -/
def execClearCounters (s : State) : Host.Outcome State Fault Refusal :=
  .next (s.complete (Request.isKind .clearCounters) (controlling fun t => { t with mgmt.counters := [] }))

/-- A radio action as one event at the location engine, with the reports of its conditions. -/
def acting (f : RadioId → Nat → State → State × Result) (p : RadioId × Nat) (s : State) : State × Result :=
  let (t, res) := f p.1 p.2 s
  (State.reportConditions s t, res)

/-- FORCE_ROAM (R51, R149). -/
def execForceRoam (s : State) : Host.Outcome State Fault Refusal :=
  .next (s.complete (Request.isRow .radioAction 1) (changing parseAction (acting State.forceRoam)))

/-- EVICT (R12, R149). -/
def execEvict (s : State) : Host.Outcome State Fault Refusal :=
  .next (s.complete (Request.isRow .radioAction 2) (changing parseAction (acting fun r _ t => t.evict r)))

/-- CLEAR_EMERGENCY (R13, R149). -/
def execClearEmergency (s : State) : Host.Outcome State Fault Refusal :=
  .next (s.complete (Request.isRow .radioAction 3) (changing parseAction (acting fun r _ t => t.clearEmergency r)))

/-- A RESET request (R151): its confirm field must be the unit number; the response is built after the reset. -/
def resetting (r : Request) (s : State) : State × Option Answer :=
  if r.body = [s.mgmt.unit.setWidth 8] then
    let t := s.applyReset .command s.straps
    (t, some (.ok, [t.mgmt.causes.toByte]))
  else (s, some (.badValue, []))

/-- RESET (R151). -/
def execReset (s : State) : Host.Outcome State Fault Refusal := .next (s.complete (Request.isKind .reset) resetting)

end Sys2Proof.Machine
end

