-- ==== Sys2Proof/Machine/Voting.lean ====
section
/-! DEFINITION. The vote unit's commands (chapter 5): copies, vote windows, call hang, STOP. -/

namespace Sys2Proof.Machine

/-- The call record in use with a key, if any (R88, R90). -/
def State.callOf (s : State) (radio : RadioId) (tag : BitVec 8) : Option (Nat × CallRecord) :=
  s.vote.calls.find? fun p => p.2.radio == radio && p.2.tag == tag

/-- The lowest free call record at or above k, looking at n records (R88). -/
def freeCall (t : Tab CallRecord) : Nat → Nat → Option Nat
  | 0, _ => none
  | n + 1, k => if (t.at? k).isNone then some k else freeCall t n (k + 1)

/-- Write a call record. -/
def State.putCall (k : Nat) (c : CallRecord) (s : State) : State := { s with vote.calls := s.vote.calls.insert k c }

/-- Free a call record. -/
def State.freeRecord (k : Nat) (s : State) : State := { s with vote.calls := s.vote.calls.erase k }

/-- The hang deadline that a copy taken now sets (R88, R90). -/
def State.hangTime (s : State) : Nat := s.now + 250 * s.loc.timing.callHang

/-- The record's times as a copy that finds it refreshes them (R90). -/
def State.touchCall (s : State) (r : CallRecord) : CallRecord := { r with lastActivity := s.now, hangDeadline := s.hangTime }

/-- The best copy a single copy gives: none if it is NO_DECODE (R91). `a` is its adjusted quality. -/
def Copy.asBest (c : Copy) (a : Option Nat) : Option BestCopy :=
  a.map fun q => { site := c.site, quality := q, payload := c.payload }

/-- A new vote window in a record, for a copy (R91, R95): the key, call type and destination are kept. -/
def State.openWindow (s : State) (c : Copy) (a : Option Nat) (r : CallRecord) : CallRecord :=
  { r with
    seq := c.seq
    isOpen := true
    deadline := s.now + s.loc.timing.voteHold
    best := c.asBest a
    copies := 1
    endSeen := c.endFlag
    emergencySeen := c.emergency
    lastActivity := s.now
    hangDeadline := s.hangTime }

/-- The UPLINK of a voted burst (R100). -/
def CallRecord.uplink (r : CallRecord) (b : BestCopy) : Uplink :=
  { site := b.site, radio := r.radio, callType := r.callType, dest := r.dest, tag := r.tag, seq := r.seq, quality := b.quality
    copies := r.copies, endFlag := r.endSeen, emergency := r.emergencySeen, unvoted := false, payload := b.payload }

/-- The UPLINK of a copy passed through unvoted (R100). -/
def Copy.uplink (c : Copy) (quality : Nat) : Uplink :=
  { site := c.site, radio := c.radio, callType := c.callType, dest := c.dest, tag := c.tag, seq := c.seq, quality := quality
    copies := 1, endFlag := c.endFlag, emergency := c.emergency, unvoted := true, payload := c.payload }

/-- Close the window of a record in use (R96): forward the best copy or count a lost burst, and free the record if END was seen. -/
def State.closeWindow (k : Nat) (r : CallRecord) (s : State) : State :=
  let s1 := s.putCall k { r with isOpen := false }
  let s2 :=
    match r.best with
    | some b => (s1.offerCore (.uplink (r.uplink b))).count (.global .votedBursts)
    | none => s1.count (.global .burstsLost)
  if r.endSeen then s2.freeRecord k else s2

/-- Write a record whose window has just opened; with a vote hold of 0 the window closes in the same event (R97). -/
def State.startWindow (k : Nat) (r : CallRecord) (s : State) : State :=
  let s1 := s.putCall k r
  if s.loc.timing.voteHold = 0 then s1.closeWindow k r else s1

/-- Forward a decoded copy unvoted (R92, R101). -/
def State.passThrough (c : Copy) (a : Option Nat) (s : State) : State :=
  match a with
  | some q => (s.offerCore (.uplink (c.uplink q))).count (.global .unvotedCopies)
  | none => s

/-- A copy with no record (R91, R92). -/
def State.newCall (c : Copy) (a : Option Nat) (s : State) : State :=
  match freeCall s.vote.calls Config.callRecords 0 with
  | some k =>
    s.startWindow k
      (s.openWindow c a
        { radio := c.radio, tag := c.tag, callType := c.callType, dest := c.dest, seq := c.seq, isOpen := true, deadline := 0
          best := none, copies := 0, endSeen := false, emergencySeen := false, lastActivity := 0, hangDeadline := 0 })
  | none => (s.passThrough c a).reportAlert .callTableFull true

/-- A copy of the current burst entered into the open window (R93). -/
def State.voteCopy (s : State) (c : Copy) (a : Option Nat) (r : CallRecord) : CallRecord :=
  let best :=
    match a, r.best with
    | some q, some b => if b.quality < q then c.asBest a else some b
    | some _, none => c.asBest a
    | none, b => b
  { s.touchCall r with
    copies := holdInc r.copies
    endSeen := r.endSeen || c.endFlag
    emergencySeen := r.emergencySeen || c.emergency
    best := best }

/-- A late copy (R94): counted on its site; only the record's times change. -/
def State.lateCopy (k : Nat) (c : Copy) (r : CallRecord) (s : State) : State :=
  (s.putCall k (s.touchCall r)).count (.site c.site .lateCopies)

/-- A copy ahead of its call (R95). -/
def State.aheadCopy (k : Nat) (c : Copy) (a : Option Nat) (r : CallRecord) (s : State) : State :=
  if r.isOpen then
    let s1 := s.closeWindow k r
    if r.endSeen then s1.newCall c a else s1.startWindow k (s1.openWindow c a r)
  else s.startWindow k (s.openWindow c a r)

/-- A copy taken in RUN that is not a PING (R90). -/
def State.voteOn (c : Copy) (a : Option Nat) (s : State) : State :=
  match s.callOf c.radio c.tag with
  | none => s.newCall c a
  | some (k, r) =>
    let diff := (c.seq - r.seq).toNat
    if diff = 0 then
      if r.isOpen then s.putCall k (s.voteCopy c a r) else s.lateCopy k c r
    else if diff ≤ 127 then s.aheadCopy k c a r
    else s.lateCopy k c r

/-- The report the vote unit hands to the location engine (R89 step 1). -/
def Copy.report (c : Copy) : Report := { radio := c.radio, site := c.site, quality := c.quality, emergency := c.emergency }

/-- A copy as the vote unit takes it (R89, R101). -/
def State.takeCopy (c : Copy) (s : State) : State :=
  let s1 : State := { s with loc.reports := s.loc.reports ++ [c.report] }
  let a := (rawQuality c.quality).map (adjust (s.site c.site).cfg.offset)
  if c.callType = .ping then s1
  else
    match s.mgmt.run with
    | .load => s1.passThrough c a
    | .run => s1.voteOn c a

/-- RECEPTION (R89): the oldest copy handed over is taken. -/
def execReception (s : State) : Host.Outcome State Fault Refusal :=
  match s.vote.inbox with
  | [] => .next s
  | c :: rest => .next (({ s with vote.inbox := rest } : State).takeCopy c)

/-- WINDOW_EXPIRY (R96, R98): the record's window is open and its deadline has passed; otherwise nothing changes. -/
def execWindowExpiry (record : Nat) (s : State) : Host.Outcome State Fault Refusal :=
  match s.vote.calls.at? record with
  | some r => if r.isOpen = true ∧ r.deadline ≤ s.now then .next (s.closeWindow record r) else .next s
  | none => .next s

/-- CALL_HANG_EXPIRY (R99): the record is in use and its hang deadline has passed; otherwise nothing changes. -/
def execCallHangExpiry (record : Nat) (s : State) : Host.Outcome State Fault Refusal :=
  match s.vote.calls.at? record with
  | some r =>
    if r.hangDeadline ≤ s.now then
      .next ((if r.isOpen then s.closeWindow record r else s).freeRecord record)
    else .next s
  | none => .next s

/-- Close every open window among some records (R102), in the order given: STOP gives ascending record number, the model's choice
(log 34). -/
def State.closeAll (rs : List (Nat × CallRecord)) (s : State) : State :=
  rs.foldl (fun s p => if p.2.isOpen then s.closeWindow p.1 p.2 else s) s

/-- STOP_VOTE_CLOSE (R102): the vote unit takes the change to LOAD, if one waits to be taken. -/
def execStopVoteClose (s : State) : Host.Outcome State Fault Refusal :=
  if s.vote.stopReport then .next (({ s with vote.stopReport := false } : State).closeAll s.vote.calls) else .next s

end Sys2Proof.Machine
end

