-- ==== Sys2Proof/Machine/Dispatch.lean ====
section
/-! DEFINITION. exec: one arm per command, each one direct call of its meaning. -/

namespace Sys2Proof.Machine

-- The effect of a command on everything but the queue.
def exec (i : Instr) (s : State) : Host.Outcome State Fault Refusal :=
  match i with
  | .powerOnReset straps => Sys2Proof.Machine.execPowerOnReset straps s
  | .pinReset straps => Sys2Proof.Machine.execPinReset straps s
  | .syncGained port => Sys2Proof.Machine.execSyncGained port s
  | .syncLost port cause => Sys2Proof.Machine.execSyncLost port cause s
  | .frameTooLong port => Sys2Proof.Machine.execFrameTooLong port s
  | .frameReceived port bytes ending => Sys2Proof.Machine.execFrameReceived port bytes ending s
  | .reception => Sys2Proof.Machine.execReception s
  | .windowExpiry record => Sys2Proof.Machine.execWindowExpiry record s
  | .callHangExpiry record => Sys2Proof.Machine.execCallHangExpiry record s
  | .stopVoteClose => Sys2Proof.Machine.execStopVoteClose s
  | .report => Sys2Proof.Machine.execReport s
  | .registration => Sys2Proof.Machine.execRegistration s
  | .directiveAck => Sys2Proof.Machine.execDirectiveAck s
  | .epochBoundary => Sys2Proof.Machine.execEpochBoundary s
  | .auditVisit slot => Sys2Proof.Machine.execAuditVisit slot s
  | .siteLeftUpEntry slot => Sys2Proof.Machine.execSiteLeftUpEntry slot s
  | .siteRemovedEntry slot => Sys2Proof.Machine.execSiteRemovedEntry slot s
  | .stopHandoverEnd slot => Sys2Proof.Machine.execStopHandoverEnd slot s
  | .heartbeat => Sys2Proof.Machine.execHeartbeat s
  | .stallExpiry site => Sys2Proof.Machine.execStallExpiry site s
  | .siteUpEgress site => Sys2Proof.Machine.execSiteUpEgress site s
  | .siteChangeReach => Sys2Proof.Machine.execSiteChangeReach s
  | .flush site => Sys2Proof.Machine.execFlush site s
  | .downlink => Sys2Proof.Machine.execDownlink s
  | .relay => Sys2Proof.Machine.execRelay s
  | .siteTurn => Sys2Proof.Machine.execSiteTurn s
  | .siteTurnSent => Sys2Proof.Machine.execSiteTurnSent s
  | .coreTake => Sys2Proof.Machine.execCoreTake s
  | .coreFrameSent => Sys2Proof.Machine.execCoreFrameSent s
  | .mgmtRequest => Sys2Proof.Machine.execMgmtRequest s
  | .identify => Sys2Proof.Machine.execIdentify s
  | .status => Sys2Proof.Machine.execStatus s
  | .readSite => Sys2Proof.Machine.execReadSite s
  | .readClass => Sys2Proof.Machine.execReadClass s
  | .readRange => Sys2Proof.Machine.execReadRange s
  | .readGroup => Sys2Proof.Machine.execReadGroup s
  | .readTiming => Sys2Proof.Machine.execReadTiming s
  | .readRadio => Sys2Proof.Machine.execReadRadio s
  | .readCall => Sys2Proof.Machine.execReadCall s
  | .readCounters => Sys2Proof.Machine.execReadCounters s
  | .writeSite => Sys2Proof.Machine.execWriteSite s
  | .enable site => Sys2Proof.Machine.execEnable site s
  | .bar site => Sys2Proof.Machine.execBar site s
  | .remove site => Sys2Proof.Machine.execRemove site s
  | .writeClass => Sys2Proof.Machine.execWriteClass s
  | .writeRange => Sys2Proof.Machine.execWriteRange s
  | .writeGroup => Sys2Proof.Machine.execWriteGroup s
  | .writeTiming => Sys2Proof.Machine.execWriteTiming s
  | .batch => Sys2Proof.Machine.execBatch s
  | .batchItem => Sys2Proof.Machine.execBatchItem s
  | .start => Sys2Proof.Machine.execStart s
  | .stop => Sys2Proof.Machine.execStop s
  | .lock => Sys2Proof.Machine.execLock s
  | .floodOn => Sys2Proof.Machine.execFloodOn s
  | .floodOff => Sys2Proof.Machine.execFloodOff s
  | .ackAlerts => Sys2Proof.Machine.execAckAlerts s
  | .clearCounters => Sys2Proof.Machine.execClearCounters s
  | .forceRoam => Sys2Proof.Machine.execForceRoam s
  | .evict => Sys2Proof.Machine.execEvict s
  | .clearEmergency => Sys2Proof.Machine.execClearEmergency s
  | .reset => Sys2Proof.Machine.execReset s
  | .alertReport cls => Sys2Proof.Machine.execAlertReport cls s
  | .invalidSymbol port inFrame cleanRun => Sys2Proof.Machine.execInvalidSymbol port inFrame cleanRun s

end Sys2Proof.Machine
end

