-- ==== Sys2Proof/Safety.lean ====
section
/-! DEFINITION. What stays true of the part: the laws the spec states of its tables, counts and queues, as predicates of a state, and
what a reset leaves. Nothing here is used by a meaning. -/

namespace Sys2Proof.Machine

/-! ### Tables -/

/-- Every table is in its canonical form (log 24). -/
def TablesCanonical (s : State) : Prop :=
  s.monitor.sites.canonical SiteRecord.default = true ∧ s.vote.calls.sorted = true ∧ s.loc.entries.sorted = true ∧
    s.loc.loads.canonical 0 = true ∧ s.loc.members.canonical [] = true ∧ (∀ p ∈ s.loc.members, p.2.canonical 0 = true) ∧
    s.loc.emergencies.canonical 0 = true ∧ s.loc.ranges.canonical ClassRange.default = true ∧
    s.reach.rows.canonical GroupRow.default = true ∧ s.egress.control.canonical [] = true ∧ s.egress.voice.canonical [] = true ∧
    s.egress.credits.canonical 0 = true ∧ s.mgmt.counters.canonical Counter.zero = true

/-! ### Configuration -/

/-- The configured fields of a site lie in their ranges (table 4-1). -/
def SiteConfig.inRange (c : SiteConfig) : Prop :=
  -16 ≤ c.offset ∧ c.offset ≤ 15 ∧ -64 ≤ c.bias ∧ c.bias ≤ 63 ∧ c.roamInLimit ≤ 2048 ∧ 100 ≤ c.stallLimit ∧
    c.stallLimit ≤ 60000 ∧ 1 ≤ c.recoveryCount ∧ c.recoveryCount ≤ 7 ∧ 1 ≤ c.initialCredit ∧ c.initialCredit ≤ 255 ∧
    1 ≤ c.releaseThreshold ∧ c.releaseThreshold ≤ 32 ∧ 8 ≤ c.voiceDepth ∧ c.voiceDepth ≤ 96

/-- The fields of a class policy record lie in their ranges (table 2-4). -/
def ClassPolicy.inRange (p : ClassPolicy) : Prop :=
  1 ≤ p.weight ∧ p.weight ≤ 16 ∧ p.decay ≤ 63 ∧ p.hysteresis ≤ 255 ∧ p.dwell ≤ 31 ∧ p.floor ≤ 1008 ∧ 1 ≤ p.shadowHold ∧
    p.shadowHold ≤ 31 ∧ 1 ≤ p.lostLimit ∧ p.lostLimit ≤ 255 ∧ 1 ≤ p.roamTimeout ∧ p.roamTimeout ≤ 15 ∧ p.retryLimit ≤ 3

/-- The fields of the timing record lie in their ranges (table 2-5). -/
def Timing.inRange (t : Timing) : Prop :=
  t.epochAdjust ≤ 63 ∧ t.voteHold ≤ 250 ∧ 2 ≤ t.callHang ∧ t.callHang ≤ 32 ∧ 1 ≤ t.staleLimit ∧ t.staleLimit ≤ 255 ∧
    1 ≤ t.purgeLimit ∧ t.purgeLimit ≤ 255

/-- Every configured record has a number the part has and fields in their ranges (R21, R22, R43 to R46, R68, R70), and no two valid
group rows carry one talkgroup (R105). -/
def ConfigurationInRange (s : State) : Prop :=
  (∀ p ∈ s.monitor.sites, validSite p.1 = true ∧ p.2.cfg.inRange) ∧ (∀ c, (s.loc.policies.policy c).inRange) ∧
    s.loc.timing.inRange ∧
    (∀ p ∈ s.loc.ranges,
      p.1 < 16 ∧ validRadio p.2.first = true ∧ validRadio p.2.last = true ∧ p.2.first ≤ p.2.last) ∧
    (∀ p ∈ s.reach.rows, p.1 < 256 ∧ (p.2.valid = true → p.2.talkgroup ≠ 0 ∧ p.2.talkgroup ≠ 0xFFFF)) ∧
    (∀ p ∈ s.reach.rows, ∀ q ∈ s.reach.rows,
      p.2.valid = true → q.2.valid = true → p.2.talkgroup = q.2.talkgroup → p.1 = q.1)

/-! ### Entries -/

/-- A radio location entry is as tables 1-1 and 1-2, R3, R4 and R49 describe one. -/
def Entry.sound (e : Entry) : Prop :=
  validRadio e.radio = true ∧ e.talkgroup ≠ 0xFFFF ∧ e.dwell ≤ 255 ∧ e.shadow ≤ 255 ∧
    (match e.state with
      | .unattached => e.serving = 0 ∧ e.handover = none
      | .attached | .shadow => validSite e.serving = true ∧ e.handover = none
      | .moving =>
        (e.serving = 0 ∨ validSite e.serving = true) ∧
          ∃ h, e.handover = some h ∧ validSite h.target = true ∧ h.target ≠ e.serving ∧ h.retries ≤ 3 ∧ h.age ≤ 255) ∧
    (e.cands.map (·.site)).Pairwise (· < ·) ∧ e.cands.length ≤ 5 ∧ (∀ c ∈ e.cands, validSite c.site = true ∧ c.score ≤ 1008) ∧
    (e.serving ≠ 0 → ∃ c ∈ e.cands, c.site = e.serving) ∧ (∀ h, e.handover = some h → ∃ c ∈ e.cands, c.site = h.target) ∧
    (∀ f, e.failed = some f → validSite f.site = true ∧ 1 ≤ f.remaining ∧ f.remaining ≤ 8)

/-- Every occupied entry is sound. -/
def EntriesSound (s : State) : Prop := ∀ p ∈ s.loc.entries, p.2.sound

/-- Slots are 0..2047, no two entries share a radio (R1), and only occupied slots wait for a visit (R17). -/
def EntryTableSound (s : State) : Prop :=
  (∀ p ∈ s.loc.entries, p.1 < 2048) ∧ (s.loc.entries.map (·.2.radio)).Nodup ∧ ∀ k ∈ s.loc.visits, (s.entry k).isSome = true

/-- What the blocks were handed of radios names valid radios, and no registration carries talkgroup 65535 (R136, R62). -/
def InboxesSound (s : State) : Prop :=
  (∀ c ∈ s.vote.inbox, validRadio c.radio = true) ∧ (∀ r ∈ s.loc.reports, validRadio r.radio = true) ∧
    ∀ r, LocationFrame.registration r ∈ s.loc.frames → validRadio r.radio = true ∧ r.talkgroup ≠ 0xFFFF

/-- The entry is ATTACHED, SHADOW or MOVING with the site as serving site. -/
def Entry.servedBy (e : Entry) (x : Nat) : Bool := decide (e.state ≠ .unattached) && e.serving == x

/-- The entry is MOVING with the site as target. -/
def Entry.movingTo (e : Entry) (x : Nat) : Bool :=
  decide (e.state = .moving) && (match e.handover with | some h => h.target == x | none => false)

/-- The load of each site is the number of entries it serves plus the number moving to it (R5, R85). -/
def LoadLaw (s : State) : Prop :=
  ∀ x, 1 ≤ x → x ≤ 40 →
    s.load x = (s.loc.entries.countP fun p => p.2.servedBy x) + s.loc.entries.countP fun p => p.2.movingTo x

/-- The member counts and the emergency count of each row (R106, R107): those of an invalid row are 0. -/
def CountLaw (s : State) : Prop :=
  ∀ k,
    (∀ x, 1 ≤ x → x ≤ 40 →
      s.memberCount k x =
        if (s.row k).valid then
          s.loc.entries.countP fun p => p.2.talkgroup == (s.row k).talkgroup && (p.2.servedBy x || p.2.movingTo x)
        else 0) ∧
    s.emergencyCount k =
      if (s.row k).valid then s.loc.entries.countP fun p => p.2.talkgroup == (s.row k).talkgroup && p.2.emergency else 0

/-! ### Time and run state -/

/-- A boundary is awaited exactly in RUN, and LOAD leaves no visit to make (R15, R17). -/
def EpochLaw (s : State) : Prop :=
  (s.mgmt.run = .run ↔ s.loc.boundary.isSome = true) ∧ (s.mgmt.run = .load → s.loc.visits = [])

/-- Under LOCK no batch is in progress (R142, R148). -/
def LockLaw (s : State) : Prop := s.mgmt.lock = true → s.mgmt.batch = none

/-! ### Calls -/

/-- Call records are 0..47 and no two in use share radio and call tag, none is a PING's, copies seen hold at 255, a best copy's
quality is 0..63 (R88, R89). -/
def CallsSound (s : State) : Prop :=
  (∀ p ∈ s.vote.calls,
    p.1 < 48 ∧ p.2.callType ≠ .ping ∧ p.2.copies ≤ 255 ∧ ∀ b, p.2.best = some b → b.quality ≤ 63) ∧
    (s.vote.calls.map fun p => (p.2.radio, p.2.tag)).Nodup

/-! ### Queues -/

/-- The frames held in the lanes of one kind. -/
def heldFrames {α : Type} (lanes : Tab (List α)) : Nat := (lanes.map fun p => p.2.length).sum

/-- The occupied pool slots are the frames held in all lanes and the core queue, at most 1536 (R120). -/
def PoolLaw (s : State) : Prop :=
  s.egress.poolUsed = heldFrames s.egress.control + heldFrames s.egress.voice + s.egress.core.length ∧ s.egress.poolUsed ≤ 1536

/-- No queue holds more than its capacity (R122). -/
def QueueCapacity (s : State) : Prop :=
  (∀ x, (s.controlLane x).length ≤ 16) ∧ (∀ x, (s.voiceLane x).length ≤ 96) ∧ s.egress.core.length ≤ 256

/-! ### Small figures -/

/-- Credits, turn pointer, request queue, invalid symbols, recovery runs, intervals and the batch keep their ranges (R69, R126, R128,
R134, R141, R146). -/
def FiguresInRange (s : State) : Prop :=
  (∀ x, s.credits x ≤ 255) ∧ (1 ≤ s.egress.pointer ∧ s.egress.pointer ≤ 40) ∧ s.mgmt.requests.length ≤ 4 ∧
    (∀ q, (s.portState q).badSymbols ≤ 4) ∧ (∀ x, (s.site x).run ≤ 6 ∧ (s.site x).interval ≤ 65535) ∧
    ∀ b, s.mgmt.batch = some b → b.rest ≠ [] ∧ b.applied + b.rest.length = b.items ∧ b.items ≤ 16

/-- The flag of a disabled class is clear (R154). -/
def DisabledFlagsClear (s : State) : Prop := s.mgmt.flags &&& ~~~ s.mgmt.enables = 0

/-! ### Resets -/

/-- A site record after a reset under LOCK (table 4-6). -/
def SiteRecord.restarted (r : SiteRecord) : SiteRecord :=
  { cfg := r.cfg
    state := match r.state with | .off => .off | .barred => .barred | .waiting | .up | .stalled => .waiting
    lastHeartbeat := none, interval := 0, run := 0, alarm := false, stall := false }

/-- What a pin or command reset leaves with LOCK clear: the state of a power-on, but for the reset causes (R152). -/
def unlockedReset (causes : ResetCauses) (straps : BitVec 6) (s : State) : State :=
  { State.reset with
    pending := s.pending, now := s.now, straps := straps, mgmt.unit := straps, mgmt.causes := causes }

/-- What a pin or command reset leaves with LOCK set (R23, R43, R45, R87, R103, R119, R121, R134, R152, R159): `t` after `s`. -/
def LockedReset (causes : ResetCauses) (straps : BitVec 6) (s t : State) : Prop :=
  t.pending = s.pending ∧ t.now = s.now ∧ t.straps = straps ∧ t.classifier = State.reset.classifier ∧ t.vote = State.reset.vote ∧
    t.egress = State.reset.egress ∧ t.monitor.inbox = [] ∧ (∀ x, t.site x = (s.site x).restarted) ∧
    t.loc =
      { State.reset.loc with
        boundary := some (s.now + s.loc.timing.epochLength), policies := s.loc.policies, ranges := s.loc.ranges
        timing := s.loc.timing } ∧
    t.reach.floodOverride = false ∧ t.reach.inbox = [] ∧ t.reach.siteReports = [] ∧
    (∀ k, t.row k = if (s.row k).valid then s.row k else GroupRow.default) ∧
    t.mgmt =
      { State.reset.mgmt with
        run := .run, lock := true, causes := causes, unit := straps, enables := s.mgmt.enables }

/-! ### Frames received -/

/-- A frame that was read passes the checks of R136 that need the part's state: a valid radio, a site that is not OFF, not BARRED
unless it is a heartbeat or a RELAY, and the part's own unit number in a request. -/
def FramePasses (s : State) (unit : Byte) (f : ReceivedFrame) : Prop :=
  (∀ r, f.radio? = some r → r ≠ 0 ∧ r ≠ 0xFFFFFF) ∧
    (∀ x, f.site? = some x → validSite x = true ∧ (s.site x).state ≠ .off ∧
      ((s.site x).state = .barred → (∃ h, f = .heartbeat h) ∨ ∃ r, f = .relay r)) ∧
    ∀ r, f = .request r → unit = s.mgmt.unit.setWidth 8

/-- The kind codes that a port receives (table 8-4). -/
def kindsOf : Port → List Nat
  | .site => [0x11, 0x12, 0x13, 0x14]
  | .core => [0x22, 0x23, 0x41]

/-- A body passes the format check of its kind code (R136 check 3, R140): its length is the kind's fixed part plus its length field, that
field is in range, and every enumerated field holds a code of table 8-5. -/
def FormatRight (kind : Nat) (body : List Byte) : Prop :=
  let field (i : Nat) : Nat := (body.getD i 0).toNat
  (kind = 0x11 → 13 ≤ body.length ∧ body.length = 13 + field 12 ∧ field 12 ≤ 64 ∧ field 4 ≤ 3) ∧
  (kind = 0x12 → body.length = 8 ∧ field 7 ≤ 3) ∧
  (kind = 0x13 → body.length = 3) ∧
  (kind = 0x14 → body.length = 6 ∧ field 5 ≤ 1) ∧
  (kind = 0x22 → 9 ≤ body.length ∧ body.length = 9 + field 8 ∧ field 8 ≤ 64 ∧ field 1 ≤ 3) ∧
  (kind = 0x23 → 2 ≤ body.length ∧ body.length = 2 + field 1 ∧ field 1 ≤ 64) ∧
  (kind = 0x41 → 4 ≤ body.length ∧ body.length = 4 + field 3 ∧ field 3 ≤ 240 ∧ 1 ≤ field 2 ∧ field 2 ≤ 10)

/-- A flags byte from its bits, bit 0 first (R140, R153). -/
def bitsByte (bits : List Bool) : Byte := BitVec.ofNat 8 (bits.foldr (fun b n => 2 * n + b.toNat) 0)

/-! ### What statements say of one command -/

/-- A port takes frames: IN_SYNC, and fewer than four invalid symbols so far without a clean run (R134, R135; log 7). -/
def PortTakes (s : State) (p : Port) : Prop := (s.portState p).inSync = true ∧ (s.portState p).badSymbols < 4

/-- The adjusted quality of a copy or report from a site: none for NO_DECODE (R26, R27). -/
def adjustedQuality (s : State) (site quality : Nat) : Option Nat :=
  if quality = 255 then none else some (max 0 (min 63 (((min quality 63 : Nat) : Int) + (s.site site).cfg.offset))).toNat

/-- The state after the vote unit has handed a copy on as a report (R89 step 1). -/
def reported (s : State) (c : Copy) (rest : List Copy) : State :=
  { s with
    vote.inbox := rest
    loc.reports := s.loc.reports ++ [{ radio := c.radio, site := c.site, quality := c.quality, emergency := c.emergency }] }

/-- The window fields of a record as a copy opens a window in it (R91, R95); the rest is kept. -/
def windowOpened (s : State) (c : Copy) (r : CallRecord) : CallRecord :=
  { radio := r.radio, tag := r.tag, callType := r.callType, dest := r.dest, seq := c.seq, isOpen := true
    deadline := s.now + s.loc.timing.voteHold
    best := (adjustedQuality s c.site c.quality).map fun q => { site := c.site, quality := q, payload := c.payload }
    copies := 1, endSeen := c.endFlag, emergencySeen := c.emergency, lastActivity := s.now
    hangDeadline := s.now + 250 * s.loc.timing.callHang }

/-- A record that a copy allocates: its key, call type and destination from the copy, its window opened by it (R91). -/
def recordOf (s : State) (c : Copy) : CallRecord :=
  windowOpened s c
    { radio := c.radio, tag := c.tag, callType := c.callType, dest := c.dest, seq := c.seq, isOpen := true, deadline := 0, best := none
      copies := 0, endSeen := false, emergencySeen := false, lastActivity := 0, hangDeadline := 0 }

/-- A record's times as a copy that finds it refreshes them (R90). -/
def refreshed (s : State) (r : CallRecord) : CallRecord :=
  { r with lastActivity := s.now, hangDeadline := s.now + 250 * s.loc.timing.callHang }

/-- The UPLINK of a copy forwarded unvoted (R100). -/
def unvotedUplink (c : Copy) (q : Nat) : CoreFrame :=
  .uplink
    { site := c.site, radio := c.radio, callType := c.callType, dest := c.dest, tag := c.tag, seq := c.seq, quality := q, copies := 1
      endFlag := c.endFlag, emergency := c.emergency, unvoted := true, payload := c.payload }

/-- What closing the window of record k does (R96): CLOSED, the best copy offered as an UPLINK or a lost burst counted, the record freed
if END was seen. -/
def windowClosed (k : Nat) (r : CallRecord) (s : State) : State :=
  let t : State :=
    { s with vote.calls := if r.endSeen then s.vote.calls.erase k else s.vote.calls.insert k { r with isOpen := false } }
  match r.best with
  | some b =>
    (t.offerCore
      (.uplink
        { site := b.site, radio := r.radio, callType := r.callType, dest := r.dest, tag := r.tag, seq := r.seq, quality := b.quality
          copies := r.copies, endFlag := r.endSeen, emergency := r.emergencySeen, unvoted := false, payload := b.payload })).count
      (.global .votedBursts)
  | none => t.count (.global .burstsLost)

/-- A record written with its window just opened; with a vote hold of 0 the window closes in the same event (R97). -/
def openedIn (k : Nat) (r : CallRecord) (s : State) : State :=
  if s.loc.timing.voteHold = 0 then windowClosed k r s else { s with vote.calls := s.vote.calls.insert k r }

/-- A candidate's effective score by the arithmetic of R28. -/
def effective (s : State) (e : Entry) (c : Candidate) : Nat :=
  c.score - (s.policy e).decay * min (s.loc.epoch - c.scoreEpoch).toNat 255

/-- A candidate after a report from its site, by the arithmetic of R29; `a` is the adjusted quality, none for NO_DECODE. -/
def smoothed (s : State) (e : Entry) (a : Option Nat) (c : Candidate) : Candidate :=
  { site := c.site
    score :=
      ((effective s e c : Int) + ((16 * (a.getD 0 : Int) - (effective s e c : Int)) * ((s.policy e).weight : Int) + 8) / 16).toNat
    scoreEpoch := s.loc.epoch
    heardEpoch := if a.isSome then s.loc.epoch else c.heardEpoch }

/-- The candidate list after a report from a site it holds (R29). -/
def scored (s : State) (e : Entry) (site : Nat) (a : Option Nat) : List Candidate :=
  e.cands.map fun c => if c.site = site then smoothed s e a c else c

/-- The table of entries, its slots in rising order, holds a radio's entry in a slot (R1). -/
def Holds (s : State) (radio : RadioId) (k : Nat) (e : Entry) : Prop :=
  s.loc.entries.sorted = true ∧ s.lookup radio = some (k, e)

/-- The table of entries, its slots in rising order, holds an entry in slot k (R1). -/
def Occupied (s : State) (k : Nat) (e : Entry) : Prop := s.loc.entries.sorted = true ∧ s.entry k = some e

/-- A notice, as frames of the core queue carry it. -/
def noticeOf (s : State) (kind : NoticeKind) (radio : RadioId) (fromSite toSite : Nat) (g : Talkgroup) (cause : NoticeCause) :
    CoreFrame :=
  .notice { kind := kind, radio := radio, fromSite := fromSite, toSite := toSite, talkgroup := g, cause := cause, epoch := s.loc.epoch }

/-- A directive for an entry's radio. -/
def directiveOf (e : Entry) (site : Nat) (kind : DirectiveKind) (other : Nat) (number : BitVec 8) : Directive :=
  { site := site, kind := kind, radio := e.radio, talkgroup := e.talkgroup, other := other, number := number, tableFull := false }

/-- The request queue's front is a request, and what waits behind it (R141). -/
def Front (s : State) (r : Request) (rest : List Request) : Prop := s.mgmt.requests = r :: rest

/-- The state with the front request taken. -/
def taken (s : State) (rest : List Request) : State := { s with mgmt.requests := rest }

/-- The state with the response to a request offered to the core queue (R141). -/
def answeredWith (r : Request) (res : Result) (body : List Byte) (s : State) : State :=
  s.offerCore (.response { tag := r.tag, result := res, body := body })

/-- The reports of the location engine's conditions that an event from `s` to `t` makes: EMERGENCY when the set of entries in emergency
becomes or ceases to be empty, TABLE_FULL when the last free slot is taken or one becomes free (R1, R13, R154). -/
def conditionReports (s t : State) : List AlertReport :=
  (if s.anyEmergency = t.anyEmergency then [] else [{ cls := .emergency, value := t.anyEmergency }]) ++
    if decide (2048 ≤ s.loc.entries.length) = decide (2048 ≤ t.loc.entries.length) then []
    else [{ cls := .tableFull, value := decide (2048 ≤ t.loc.entries.length) }]

/-- The state `t` with those reports handed to the management unit. -/
def withConditions (s t : State) : State :=
  { t with mgmt.alertReports := t.mgmt.alertReports ++ conditionReports s t }

/-- A new entry of a decoded report (R8): UNATTACHED, all else at its value at creation; `q` is the adjusted quality. -/
def createdEntry (s : State) (radio : RadioId) (site q : Nat) : Entry :=
  { radio := radio, cls := classOf s.loc.ranges radio, state := .unattached, talkgroup := 0, serving := 0, number := 0
    handover := none, dwell := 0, shadow := 0, failed := none, emergency := false
    cands := [{ site := site, score := 16 * q, scoreEpoch := s.loc.epoch, heardEpoch := s.loc.epoch }] }

/-- A new entry goes to a slot (R10): the lowest free one or, with all occupied, the one an eviction frees, whose entry is UNATTACHED
with emergency clear and, among such, has the greatest newest heard age, then the lowest slot. -/
def SlotFor (s : State) (k : Nat) (evicts : Bool) : Prop :=
  if evicts then
    s.loc.entries.sorted = true ∧ (∀ j < 2048, (s.entry j).isSome = true) ∧
      ∃ v, s.entry k = some v ∧ v.state = .unattached ∧ v.emergency = false ∧
        ∀ j w, s.entry j = some w → w.state = .unattached → w.emergency = false → j ≠ k →
          newestHeardAge s.loc.epoch w < newestHeardAge s.loc.epoch v ∨
            (newestHeardAge s.loc.epoch w = newestHeardAge s.loc.epoch v ∧ k < j)
  else k < 2048 ∧ s.entry k = none ∧ ∀ j < k, (s.entry j).isSome = true

/-- No slot can be had (R10). -/
def NoSlot (s : State) : Prop :=
  (∀ j < 2048, (s.entry j).isSome = true) ∧ ∀ p ∈ s.loc.entries, p.2.state = .unattached → p.2.emergency = true

/-- The slot obtained for a new entry: an eviction is counted. -/
def slotTaken (k : Nat) (evicts : Bool) (s : State) : State :=
  if evicts then (s.writeEntry k none).count (.global .evictions) else s

/-- A candidate record may be replaced: its site is neither the serving site nor the target (R31). -/
def Replaceable (e : Entry) (c : Candidate) : Prop := c.site ≠ e.serving ∧ ∀ h, e.handover = some h → c.site ≠ h.target

/-- The victim of R31: among the replaceable records the lowest effective score, then the greater heard age, then the higher site. -/
def Victim (s : State) (e : Entry) (v : Candidate) : Prop :=
  v ∈ e.cands ∧ Replaceable e v ∧
    ∀ c ∈ e.cands, Replaceable e c → c ≠ v →
      effective s e v < effective s e c ∨
        (effective s e v = effective s e c ∧
          (age s.loc.epoch c.heardEpoch < age s.loc.epoch v.heardEpoch ∨
            (age s.loc.epoch c.heardEpoch = age s.loc.epoch v.heardEpoch ∧ c.site < v.site)))

/-- The candidate list `cs` after a report from a site (R29, R30, R31), `a` its adjusted quality; a registration (`force`) replaces the
victim whatever the scores (R57). -/
def CandidatesAfter (s : State) (e : Entry) (site : Nat) (a : Option Nat) (force : Bool) (cs : List Candidate) : Prop :=
  if (candOf site e.cands).isSome then cs = scored s e site a
  else
    match a with
    | none => cs = e.cands
    | some q =>
      let new : Candidate := { site := site, score := 16 * q, scoreEpoch := s.loc.epoch, heardEpoch := s.loc.epoch }
      if e.cands.length < 5 then cs = insertCand new e.cands
      else
        ∃ v, Victim s e v ∧
          cs = if force = true ∨ effective s e v < 16 * q then insertCand new (dropCand v.site e.cands) else e.cands

/-- A decision value (R32). -/
def decision (s : State) (e : Entry) (c : Candidate) : Int := (effective s e c : Int) + (s.site c.site).cfg.bias

/-- A candidate is an eligible target (R33). -/
def EligibleTarget (s : State) (e : Entry) (c : Candidate) : Prop :=
  c.site ≠ e.serving ∧ (s.site c.site).state = .up ∧ s.load c.site < (s.site c.site).cfg.roamInLimit ∧
    (s.policy e).floor ≤ effective s e c ∧ ∀ f, e.failed = some f → f.site ≠ c.site

/-- The best eligible target (R34): the highest decision value, then the lower site number. -/
def BestTarget (s : State) (e : Entry) (b : Candidate) : Prop :=
  b ∈ e.cands ∧ EligibleTarget s e b ∧
    ∀ c ∈ e.cands, EligibleTarget s e c → c ≠ b →
      decision s e c < decision s e b ∨ (decision s e c = decision s e b ∧ b.site < c.site)

/-- The roam decision takes the best target from ATTACHED (R35, R37). -/
def AttachedTakes (s : State) (e : Entry) (b : Candidate) : Prop :=
  (∃ v, candOf e.serving e.cands = some v ∧ decision s e v + ((s.policy e).hysteresis : Int) ≤ decision s e b) ∧
    (s.policy e).dwell ≤ e.dwell ∧ e.emergency = false

/-- A site's control lane can take a frame (R123). -/
def LaneTakes (s : State) (x : Nat) : Prop :=
  ((s.site x).state = .waiting ∨ (s.site x).state = .up ∨ (s.site x).state = .stalled) ∧ (s.controlLane x).length < 16 ∧
    s.egress.poolUsed < 1536

/-- A handover of the entry in slot k to site t started (R50), the SERVE admitted: SERVE to the target, MOVE to the serving site, both
with the next handover number, and the entry MOVING. -/
def handoverStarted (k : Nat) (e : Entry) (t : Nat) (origin : Origin) (cands : List Candidate) (s : State) : State :=
  ((s.issueDirective (directiveOf e t .serve e.serving (e.number + 1))).issueDirective
    (directiveOf e e.serving .move t (e.number + 1))).writeEntry k
    (some
      { e with
        number := e.number + 1
        handover := some { target := t, origin := origin, retries := 0, age := 0, accepted := false }
        state := .moving
        cands := cands })

/-- A frame refused for lack of room in a lane of a site (R123, R125). -/
def refusedAtLane (x : Nat) (s : State) : State :=
  ({ s with mgmt.alertReports := s.mgmt.alertReports ++ [{ cls := .queueDrop, value := true }] } : State).count (.site x .queueDrops)

/-- The unknown-talkgroup report of a registration that leaves an entry ATTACHED with talkgroup g (R108). -/
def notedUnknown (g : Talkgroup) (t : State) : State :=
  if g ≠ 0 ∧ g ≠ 0xFFFF ∧ ∀ p ∈ t.reach.rows, p.2.valid = true → p.2.talkgroup ≠ g then
    { t with mgmt.alertReports := t.mgmt.alertReports ++ [{ cls := .unknownTalkgroup, value := true }] }
  else t

/-- A registration's frame taken by the location engine. -/
def frameTaken (s : State) (rest : List LocationFrame) : State := { s with loc.frames := rest }

/-- The adjusted quality of a registration, NO_DECODE read as 0 (R7, R27). -/
def registeredQuality (s : State) (r : Registration) : Nat :=
  (max 0 (min 63 (((if r.quality = 255 then 0 else min r.quality 63 : Nat) : Int) + (s.site r.site).cfg.offset))).toNat

/-- An entry after steps 1 and 2 of an audit visit (R18, R42, R49, R56). -/
def audited (s : State) (e : Entry) : Entry :=
  { e with
    dwell := if e.dwell < 255 then e.dwell + 1 else e.dwell
    shadow := if e.state = .shadow ∧ e.shadow < 255 then e.shadow + 1 else e.shadow
    handover :=
      match e.state, e.handover with
      | .moving, some h => some { h with age := if h.age < 255 then h.age + 1 else h.age }
      | _, h => h
    failed :=
      match e.failed with
      | some f => if f.remaining ≤ 1 then none else some { f with remaining := f.remaining - 1 }
      | none => none
    cands :=
      e.cands.filter fun c =>
        c.site == e.serving || (match e.handover with | some h => c.site == h.target | none => false) ||
          decide (age s.loc.epoch c.heardEpoch < s.loc.timing.staleLimit) }

/-- The state with the entry's visit of this epoch taken (R17). -/
def visitTaken (s : State) (k : Nat) : State := { s with loc.visits := s.loc.visits.filter (· != k) }

/-- An UNATTACHED entry is purged (R19). -/
def PurgeDue (s : State) (e : Entry) : Prop := e.emergency = false ∧ s.loc.timing.purgeLimit ≤ newestHeardAge s.loc.epoch e

/-- The directives of an entry that leaves service (R11, R12, R65): RELEASE to its serving site, before it CANCEL to its target. -/
def leaving (e : Entry) (s : State) : State :=
  match e.state, e.handover with
  | .unattached, _ => s
  | .moving, some h =>
    (s.issueDirective (directiveOf e h.target .cancel e.serving e.number)).issueDirective (directiveOf e e.serving .release 0 e.number)
  | _, _ => s.issueDirective (directiveOf e e.serving .release 0 e.number)

/-- The state with a waiting site change report for an entry taken (R39, R63, R81, R82). -/
def newsTaken (s : State) (k x : Nat) (n : SiteNews) : State :=
  { s with loc.siteReports := s.loc.siteReports.erase { slot := k, site := x, news := n } }

/-- The site monitor's report of a change to each entry it concerns (R72, R80). -/
def toldEntries (s : State) (x : Nat) (n : SiteNews) : List EntryReport :=
  (s.loc.entries.filter fun p => p.2.concernedBy x n).map fun p => { slot := p.1, site := x, news := n }

/-- A site is in the reach set of a burst that is not a PING (R111, R112, R113). -/
def reaches (s : State) (d : Downlink) (x : Nat) : Bool :=
  s.siteUp x &&
    match s.mgmt.run, d.callType with
    | .load, _ | .run, .all | .run, .ping => true
    | .run, .group =>
      d.dest.setWidth 16 == 0xFFFF#16 ||
        (match rowOf s.reach.rows (d.dest.setWidth 16) with
          | none => true
          | some k =>
            s.reach.floodOverride || (s.row k).flood || decide (0 < s.emergencyCount k) || inSet (s.row k).pinned x ||
              decide (0 < s.memberCount k x))
    | .run, .individual =>
      match s.lookup d.dest with
      | none => true
      | some (_, e) =>
        if s.upSites.any fun y => e.servedBy y || e.movingTo y then e.servedBy x || e.movingTo x
        else if s.upSites.any fun y => (candOf y e.cands).isSome then (candOf x e.cands).isSome
        else true

/-- An INDIVIDUAL burst is flooded: its radio has no entry, or none of its entry's sites is UP (R113 step 3). -/
def flooded (s : State) (d : Downlink) : Bool :=
  decide (s.mgmt.run = .run) && decide (d.callType = .individual) &&
    match s.lookup d.dest with
    | none => true
    | some (_, e) => !s.upSites.any fun y => e.servedBy y || e.movingTo y || (candOf y e.cands).isSome

/-- The copies of a burst offered to the voice lanes of some sites in order, each admitted one counted (R111 step 4). -/
def copiesOffered (d : Downlink) (sites : List Nat) (s : State) : State :=
  sites.foldl
    (fun t x =>
      let p := t.offerVoice x { site := x, burst := d }
      if p.2 = .admitted then p.1.count (.global .downlinkCopies) else p.1) s

/-- A site has a turn ready (R127), and its change to UP is no longer waiting to be taken (R74; log 13). -/
def TurnReady (s : State) (x : Nat) : Prop :=
  (s.site x).state = .up ∧ { site := x, news := .up } ∉ s.egress.reports ∧
    ((s.controlLane x ≠ [] ∧ 1 ≤ s.credits x) ∨
      (s.controlLane x = [] ∧ s.voiceLane x ≠ [] ∧
        min (s.site x).cfg.releaseThreshold (s.voiceLane x).length ≤ s.credits x))

/-- The row of the table that completes a request of some kind, and the table or action code its request names (R141, R142). -/
def Completes (c : Instr) (r : Request) : Prop :=
  match c with
  | .identify => r.kind = .identify
  | .status => r.kind = .status
  | .readSite => r.kind = .read ∧ r.code = some 1
  | .readClass => r.kind = .read ∧ r.code = some 2
  | .readRange => r.kind = .read ∧ r.code = some 3
  | .readGroup => r.kind = .read ∧ r.code = some 4
  | .readTiming => r.kind = .read ∧ r.code = some 5
  | .readRadio => r.kind = .read ∧ r.code = some 6
  | .readCall => r.kind = .read ∧ r.code = some 7
  | .readCounters => r.kind = .read ∧ r.code = some 8
  | .writeSite => r.kind = .write ∧ r.code = some 1
  | .writeClass => r.kind = .write ∧ r.code = some 2
  | .writeRange => r.kind = .write ∧ r.code = some 3
  | .writeGroup => r.kind = .write ∧ r.code = some 4
  | .writeTiming => r.kind = .write ∧ r.code = some 5
  | .batch => r.kind = .batch
  | .start => r.kind = .control ∧ r.code = some 1
  | .stop => r.kind = .control ∧ r.code = some 2
  | .lock => r.kind = .control ∧ r.code = some 3
  | .floodOn => r.kind = .control ∧ r.code = some 4
  | .floodOff => r.kind = .control ∧ r.code = some 5
  | .ackAlerts => r.kind = .ackAlerts
  | .clearCounters => r.kind = .clearCounters
  | .forceRoam => r.kind = .radioAction ∧ r.code = some 1
  | .evict => r.kind = .radioAction ∧ r.code = some 2
  | .clearEmergency => r.kind = .radioAction ∧ r.code = some 3
  | .reset => r.kind = .reset
  | _ => False

/-- The kind of request that a row of the table completes (R141). -/
def completedKind : Instr → Option RequestKind
  | .identify => some .identify
  | .status => some .status
  | .readSite | .readClass | .readRange | .readGroup | .readTiming | .readRadio | .readCall | .readCounters => some .read
  | .writeSite | .writeClass | .writeRange | .writeGroup | .writeTiming => some .write
  | .batch => some .batch
  | .start | .stop | .lock | .floodOn | .floodOff => some .control
  | .ackAlerts => some .ackAlerts
  | .clearCounters => some .clearCounters
  | .forceRoam | .evict | .clearEmergency => some .radioAction
  | .reset => some .reset
  | _ => none

/-- The request's body holds a table or action code that is not defined for its kind (R142 check 3, table 9-7). -/
def CodeUndefined (r : Request) : Prop :=
  ∃ code rest, r.body = code :: rest ∧
    match r.kind with
    | .read => code.toNat = 0 ∨ 8 < code.toNat
    | .write | .control => code.toNat = 0 ∨ 5 < code.toNat
    | .radioAction => code.toNat = 0 ∨ 3 < code.toNat
    | _ => False

/-- A row takes the request at the front: the row of its table or action, or, where it names none that is defined, any row of its kind
(log 10). -/
def Serves (c : Instr) (r : Request) : Prop :=
  Completes c r ∨ (completedKind c = some r.kind ∧ (r.body = [] ∨ CodeUndefined r))

/-- The body is of the length that the request's kind and table call for (R142 check 1, tables 9-7 and 9-8); with an undefined code
any body that holds the code is. -/
def LengthRight (r : Request) : Prop :=
  match r.kind with
  | .identify | .status | .clearCounters => r.body = []
  | .ackAlerts => r.body.length = 8
  | .reset => r.body.length = 1
  | .batch =>
    ∃ items : List (List Byte), 1 ≤ items.length ∧ items.length ≤ 16 ∧ (∀ i ∈ items, i.length < 256) ∧
      r.body = byte items.length :: items.flatMap fun i => byte i.length :: i
  | .read =>
    ∃ code rest, r.body = code :: rest ∧
      (1 ≤ code.toNat → code.toNat ≤ 8 → rest.length = if code.toNat = 6 then 4 else 2)
  | .write =>
    ∃ code rest, r.body = code :: rest ∧
      (code.toNat = 1 → rest.length = 13) ∧ (code.toNat = 2 → rest.length = 12) ∧ (code.toNat = 3 → rest.length = 10) ∧
      (code.toNat = 4 → rest.length = 10) ∧ (code.toNat = 5 → rest.length = 7)
  | .control => ∃ code rest, r.body = code :: rest ∧ (1 ≤ code.toNat → code.toNat ≤ 5 → rest = [])
  | .radioAction => ∃ code rest, r.body = code :: rest ∧ (1 ≤ code.toNat → code.toNat ≤ 3 → rest.length = 4)

/-- No batch is in progress and LOCK is clear: no request is held off (R142 checks 2 and 4). -/
def Unheld (s : State) : Prop := s.mgmt.batch = none ∧ s.mgmt.lock = false

/-- Entry `p` counts in the member count of talkgroup g at site x (R106). -/
def memberAt (g : Talkgroup) (x : Nat) (p : Nat × Entry) : Bool := p.2.talkgroup == g && (p.2.servedBy x || p.2.movingTo x)

/-- One ALERT offered for each class whose flag is set in `s` and was clear before, in ascending class code, each with the flags as they
stand in `s` (R155; log 17). -/
def alertsOffered (before : BitVec 8) (s : State) : State :=
  ([.siteStall, .siteAlarm, .emergency, .tableFull, .callTableFull, .queueDrop, .linkError, .unknownTalkgroup] : List AlertClass).foldl
    (fun t c =>
      if hasClass s.mgmt.flags c = true ∧ hasClass before c = false then
        t.offerCore (.alert { cls := c, flags := s.mgmt.flags, stalls := s.stallSet, epoch := s.loc.epoch })
      else t) s

/-- What a command may never change under LOCK but by a power-on reset (R148): `t` after `s`. -/
def ConfigurationSame (s t : State) : Prop :=
  t.mgmt.lock = true ∧ (∀ x, (t.site x).cfg = (s.site x).cfg) ∧ t.loc.policies = s.loc.policies ∧ t.loc.ranges = s.loc.ranges ∧
    t.loc.timing = s.loc.timing ∧ ∀ k, (s.row k).valid = true → t.row k = s.row k

end Sys2Proof.Machine
end

