-- ==== Sys2Proof/Certificates/Slice0/Obligations.lean ====
section
/-! DEFINITION. The statements for the provers. Each is about one command, or about every step; `s` is any state, reachable or not,
unless a law of Safety.lean is a premise. -/

section Sys2ProofObligations

open Sys2Proof Sys2Proof.Machine

/-! ### The queue -/

/-- Step takes the command at the front of the queue; an empty queue lets one millisecond pass (the model's choice, log 3). -/
def Obligations.StepTakesFrontCommand : Prop :=
  (∀ (c : Instr) (rest : List Instr) (s : State), s.pending = c :: rest → step s = exec c { s with pending := rest }) ∧
    ∀ s : State, s.pending = [] → step s = .next { s with now := s.now + 1 }

/-- Whatever the command and the state, the part goes on: a next state, with the queue and the time as they were (no rule of the spec
stops the part). A command that takes what another block handed over changes nothing while nothing waits (the model's choice, log 2). -/
def Obligations.EveryCommandAnswersNext : Prop :=
  (∀ (c : Instr) (s : State), ∃ t, exec c s = .next t ∧ t.pending = s.pending ∧ t.now = s.now) ∧
  ∀ s : State,
    (s.vote.inbox = [] → exec .reception s = .next s) ∧
    (s.vote.stopReport = false → exec .stopVoteClose s = .next s) ∧
    (s.loc.reports = [] → exec .report s = .next s) ∧
    (s.loc.frames = [] → exec .registration s = .next s ∧ exec .directiveAck s = .next s) ∧
    (s.monitor.inbox = [] → exec .heartbeat s = .next s) ∧
    (s.reach.inbox = [] → exec .downlink s = .next s ∧ exec .relay s = .next s) ∧
    (s.mgmt.inbox = [] → exec .mgmtRequest s = .next s) ∧
    (s.mgmt.requests = [] → ∀ c r, Completes c r → exec c s = .next s)

/-! ### Resets -/

/-- POWER_ON_RESET leaves the power-on state with the straps read; PIN_RESET leaves that state but for its cause flags with LOCK
clear, and keeps the configuration with LOCK set. That the strap level is the command's operand, that the time goes on and that what
the blocks had handed over is discarded are the model's choices (logs 5, 3, 8). -/
def Obligations.PowerOnAndPinReset : Prop :=
  (∀ (p : BitVec 6) (s : State),
    exec (.powerOnReset p) s =
      .next { State.reset with pending := s.pending, now := s.now, straps := p, mgmt.unit := p }) ∧
  (∀ (p : BitVec 6) (s : State), s.mgmt.lock = false →
    exec (.pinReset p) s = .next (unlockedReset { s.mgmt.causes with pin := true } p s)) ∧
  ∀ (p : BitVec 6) (s : State), s.mgmt.lock = true → TablesCanonical s →
    ∃ t, exec (.pinReset p) s = .next t ∧ LockedReset { s.mgmt.causes with pin := true } p s t

/-- RESET with the unit number as its confirm field resets the part at once, and its response is the only frame in the emptied core
queue; with another confirm field it is answered BAD_VALUE. That the strap level last given is read again, that the time goes on and
that what the blocks had handed over is discarded are the model's choices (logs 5, 3, 8). -/
def Obligations.CommandReset : Prop :=
  (∀ (s : State) (r : Request) (rest : List Request),
    Front s r rest → r.kind = .reset → r.body = [s.mgmt.unit.setWidth 8] → TablesCanonical s →
      ∃ u,
        (if s.mgmt.lock then LockedReset { s.mgmt.causes with command := true } s.straps s u
          else u = unlockedReset { s.mgmt.causes with command := true } s.straps s) ∧
        exec .reset s =
          .next
            { u with
              egress.core :=
                [.response
                  { tag := r.tag, result := .ok
                    body := [flagByte [s.mgmt.causes.powerOn, s.mgmt.causes.pin, true]] }]
              egress.poolUsed := 1 }) ∧
  ∀ (s : State) (r : Request) (rest : List Request) (b : Byte),
    Front s r rest → r.kind = .reset → r.body = [b] → b ≠ s.mgmt.unit.setWidth 8 →
      exec .reset s = .next (answeredWith r .badValue [] (taken s rest))

/-! ### The line -/

/-- SYNC_GAINED takes a HUNTING port IN_SYNC; SYNC_LOST takes an IN_SYNC port whose signal is gone, or that has had four invalid
symbols, to HUNTING, cuts off what it was sending, counts the loss and reports a link error; in the other sync state each changes
nothing. -/
def Obligations.SyncGainedAndLost : Prop :=
  (∀ s : State, s.classifier.sitePort.inSync = false →
    exec (.syncGained .site) s = .next { s with classifier.sitePort := { inSync := true, badSymbols := 0 } } ∧
      ∀ cause, exec (.syncLost .site cause) s = .next s) ∧
  (∀ s : State, s.classifier.corePort.inSync = false →
    exec (.syncGained .core) s = .next { s with classifier.corePort := { inSync := true, badSymbols := 0 } } ∧
      ∀ cause, exec (.syncLost .core cause) s = .next s) ∧
  (∀ s : State, s.classifier.sitePort.inSync = true → exec (.syncGained .site) s = .next s) ∧
  (∀ s : State, s.classifier.corePort.inSync = true → exec (.syncGained .core) s = .next s) ∧
  (∀ (s : State) (cause : SyncLossCause), s.classifier.sitePort.inSync = true →
    (cause = .invalidSymbols → 4 ≤ s.classifier.sitePort.badSymbols) →
      exec (.syncLost .site cause) s =
        .next
          (({ s with
              classifier.sitePort := { inSync := false, badSymbols := 0 }
              egress.siteTx := none
              mgmt.alertReports := s.mgmt.alertReports ++ [{ cls := .linkError, value := true }] } : State).count
            (.port .site .syncLosses))) ∧
  ∀ (s : State) (cause : SyncLossCause), s.classifier.corePort.inSync = true →
    (cause = .invalidSymbols → 4 ≤ s.classifier.corePort.badSymbols) →
      exec (.syncLost .core cause) s =
        .next
          (({ s with
              classifier.corePort := { inSync := false, badSymbols := 0 }
              egress.coreTx := none
              mgmt.alertReports := s.mgmt.alertReports ++ [{ cls := .linkError, value := true }] } : State).count
            (.port .core .syncLosses))

/-- On a port that takes frames, a frame of 263 bytes is counted as a length error, and an invalid symbol counts toward loss of sync
and, inside a frame, is counted as a CRC error; a HUNTING port does nothing with either, nor with a frame. -/
def Obligations.FramingFaultsCounted : Prop :=
  (∀ (s : State) (p : Port), PortTakes s p → exec (.frameTooLong p) s = .next (s.count (.port p .lengthErrors))) ∧
  (∀ (s : State) (p : Port) (inFrame : Bool) (clean : Nat), PortTakes s p →
    exec (.invalidSymbol p inFrame clean) s =
      .next
        (let t := s.putPort p
            { inSync := true, badSymbols := if 32 ≤ clean then 1 else min 4 ((s.portState p).badSymbols + 1) }
          if inFrame then t.count (.port p .crcErrors) else t)) ∧
  ∀ (s : State) (p : Port), (s.portState p).inSync = false →
    exec (.frameTooLong p) s = .next s ∧ (∀ inFrame clean, exec (.invalidSymbol p inFrame clean) s = .next s) ∧
      ∀ bytes ending, exec (.frameReceived p bytes ending) s = .next s

/-- The bytes of a received frame are checked in order: framing and length (R135), CRC, kind (those table 8-4 gives the port),
format (lengths, length fields, enumerated codes; R136, checks 1 to 3); the frame is discarded and the counter of the first check
that fails, and nothing else, goes up; a frame that passes all three is read. -/
def Obligations.FrameBytesCheckedInOrder : Prop :=
  ∀ (s : State) (p : Port), PortTakes s p →
    (∀ bytes ending, ending ≠ .endMark ∨ bytes.length < 7 ∨ 262 < bytes.length →
      exec (.frameReceived p bytes ending) s = .next (s.count (.port p .lengthErrors))) ∧
    ∀ (kind unit len : Byte) (body trailer : List Byte), trailer.length = 4 →
      let frame := kind :: unit :: len :: (body ++ trailer)
      let received := exec (.frameReceived p frame .endMark) s
      (body.length ≠ len.toNat → received = .next (s.count (.port p .lengthErrors))) ∧
      (body.length = len.toNat → trailer ≠ crcTrailer (kind :: unit :: len :: body) →
        received = .next (s.count (.port p .crcErrors))) ∧
      (body.length = len.toNat → trailer = crcTrailer (kind :: unit :: len :: body) →
        (kind.toNat ∉ kindsOf p → received = .next (s.count (.port p .kindErrors))) ∧
        (kind.toNat ∈ kindsOf p → ¬FormatRight kind.toNat body → received = .next (s.count (.port p .formatErrors))) ∧
        (kind.toNat ∈ kindsOf p → FormatRight kind.toNat body →
          ∃ f : ReceivedFrame, f.kindCode = kind ∧ f.port = p ∧ readFrame p frame .endMark = .ok (unit, f)))

/-- A frame that was read and passes the checks on radio, site and unit is counted as accepted and handed whole to the block that owns
its kind, behind what that block was handed before. -/
def Obligations.AcceptedFrameRouted : Prop :=
  ∀ (s : State) (p : Port) (bytes : List Byte) (unit : Byte) (f : ReceivedFrame), PortTakes s p →
    readFrame p bytes .endMark = .ok (unit, f) → FramePasses s unit f →
    exec (.frameReceived p bytes .endMark) s =
      .next
        (match f with
          | .reception c => ({ s with vote.inbox := s.vote.inbox ++ [c] } : State).count (.port p .framesAccepted)
          | .registration r => ({ s with loc.frames := s.loc.frames ++ [.registration r] } : State).count (.port p .framesAccepted)
          | .ack a => ({ s with loc.frames := s.loc.frames ++ [.ack a] } : State).count (.port p .framesAccepted)
          | .heartbeat h => ({ s with monitor.inbox := s.monitor.inbox ++ [h] } : State).count (.port p .framesAccepted)
          | .downlink d => ({ s with reach.inbox := s.reach.inbox ++ [.downlink d] } : State).count (.port p .framesAccepted)
          | .relay r => ({ s with reach.inbox := s.reach.inbox ++ [.relay r] } : State).count (.port p .framesAccepted)
          | .request r => ({ s with mgmt.inbox := s.mgmt.inbox ++ [r] } : State).count (.port p .framesAccepted))

/-- A frame that was read and fails a check on radio, site, barred site or unit is discarded, and only the counter of the first that
fails goes up (R136, checks 4 to 7). -/
def Obligations.RefusedFrameCounted : Prop :=
  ∀ (s : State) (p : Port) (bytes : List Byte) (unit : Byte) (f : ReceivedFrame), PortTakes s p →
    readFrame p bytes .endMark = .ok (unit, f) →
    let radioFails := ∃ r, f.radio? = some r ∧ (r = 0 ∨ r = 0xFFFFFF)
    let siteFails := ∃ x, f.site? = some x ∧ (x = 0 ∨ 40 < x ∨ (s.site x).state = .off)
    let barredFails := (∃ x, f.site? = some x ∧ (s.site x).state = .barred) ∧ (∀ h, f ≠ .heartbeat h) ∧ ∀ r, f ≠ .relay r
    let unitFails := (∃ r, f = .request r) ∧ unit ≠ s.mgmt.unit.setWidth 8
    (radioFails → exec (.frameReceived p bytes .endMark) s = .next (s.count (.port p .invalidRadio))) ∧
    (¬radioFails → siteFails → exec (.frameReceived p bytes .endMark) s = .next (s.count (.port p .unknownSite))) ∧
    (¬radioFails → ¬siteFails → barredFails →
      exec (.frameReceived p bytes .endMark) s = .next (s.count (.port p .barredSite))) ∧
    (¬radioFails → ¬siteFails → ¬barredFails → unitFails →
      exec (.frameReceived p bytes .endMark) s = .next (s.count (.port p .otherUnit)))

/-- Every frame whose fields fit their places, laid out as R140 gives with a right CRC, is read back whole, with its unit byte. -/
def Obligations.ReceivedFrameReadsBack : Prop :=
  ∀ (f : ReceivedFrame) (unit : Byte), f.fits = true →
    readFrame f.port (frameBytes f.kindCode unit f.body) .endMark = .ok (unit, f)

/-! ### Call voting -/

/-- Every copy is handed to the location engine as a report; a PING goes no further, and in LOAD a decoded copy of another type is
forwarded unvoted and counted, a NO_DECODE one discarded. That a copy taken between a STOP and STOP_VOTE_CLOSE is passed through,
not voted, is the model's reading (log 31). -/
def Obligations.CopyReportedAndPassedInLoad : Prop :=
  (∀ (s : State) (c : Copy) (rest : List Copy), s.vote.inbox = c :: rest →
    ∃ t, exec .reception s = .next t ∧ t.loc = (reported s c rest).loc ∧ t.vote.inbox = rest ∧ t.monitor = s.monitor ∧
      t.reach = s.reach ∧ t.classifier = s.classifier) ∧
  (∀ (s : State) (c : Copy) (rest : List Copy), s.vote.inbox = c :: rest → c.callType = .ping →
    exec .reception s = .next (reported s c rest)) ∧
  (∀ (s : State) (c : Copy) (rest : List Copy) (q : Nat), s.vote.inbox = c :: rest → c.callType ≠ .ping → s.mgmt.run = .load →
    adjustedQuality s c.site c.quality = some q →
    exec .reception s = .next (((reported s c rest).offerCore (unvotedUplink c q)).count (.global .unvotedCopies))) ∧
  ∀ (s : State) (c : Copy) (rest : List Copy), s.vote.inbox = c :: rest → c.callType ≠ .ping → s.mgmt.run = .load →
    c.quality = 255 → exec .reception s = .next (reported s c rest)

/-- A copy with no record of its call takes the lowest free record and opens its window; with a vote hold of 0 the window closes in the
same event. -/
def Obligations.FirstCopyOpensWindow : Prop :=
  ∀ (s : State) (c : Copy) (rest : List Copy) (k : Nat), s.vote.inbox = c :: rest → c.callType ≠ .ping → s.mgmt.run = .run →
    s.callOf c.radio c.tag = none → k < 48 → s.vote.calls.at? k = none → (∀ j < k, (s.vote.calls.at? j).isSome = true) →
    exec .reception s = .next (openedIn k (recordOf s c) (reported s c rest))

/-- With all 48 records in use, a copy with no record of its call allocates none: a decoded one is forwarded unvoted and counted, and
the full call table is reported. -/
def Obligations.FullCallTablePassesThrough : Prop :=
  ∀ (s : State) (c : Copy) (rest : List Copy), s.vote.inbox = c :: rest → c.callType ≠ .ping → s.mgmt.run = .run →
    s.callOf c.radio c.tag = none → (∀ j < 48, (s.vote.calls.at? j).isSome = true) →
    (∀ q, adjustedQuality s c.site c.quality = some q →
      exec .reception s =
        .next
          ((((reported s c rest).offerCore (unvotedUplink c q)).count (.global .unvotedCopies)).reportAlert .callTableFull true)) ∧
    (c.quality = 255 → exec .reception s = .next ((reported s c rest).reportAlert .callTableFull true))

/-- A copy of the current burst enters an OPEN window: counted up to 255, its flags taken, the best copy replaced only by a decoded one
of greater adjusted quality. -/
def Obligations.CopyEntersOpenWindow : Prop :=
  ∀ (s : State) (c : Copy) (rest : List Copy) (k : Nat) (r : CallRecord), s.vote.inbox = c :: rest → c.callType ≠ .ping →
    s.mgmt.run = .run → s.callOf c.radio c.tag = some (k, r) → c.seq = r.seq → r.isOpen = true →
    exec .reception s =
      .next
        { reported s c rest with
          vote.calls :=
            s.vote.calls.insert k
              { refreshed s r with
                copies := if r.copies < 255 then r.copies + 1 else r.copies
                endSeen := r.endSeen || c.endFlag
                emergencySeen := r.emergencySeen || c.emergency
                best :=
                  match adjustedQuality s c.site c.quality, r.best with
                  | some q, some b =>
                    if b.quality < q then some { site := c.site, quality := q, payload := c.payload } else some b
                  | some q, none => some { site := c.site, quality := q, payload := c.payload }
                  | none, b => b } }

/-- A late copy (behind its call, or of the current burst with the window CLOSED) is counted on its site; its record's last-activity
time and hang deadline are refreshed, and no other field changes. -/
def Obligations.LateCopyCounted : Prop :=
  ∀ (s : State) (c : Copy) (rest : List Copy) (k : Nat) (r : CallRecord), s.vote.inbox = c :: rest → c.callType ≠ .ping →
    s.mgmt.run = .run → s.callOf c.radio c.tag = some (k, r) →
    ((c.seq = r.seq ∧ r.isOpen = false) ∨ 128 ≤ (c.seq - r.seq).toNat) →
    exec .reception s =
      .next
        (({ reported s c rest with vote.calls := s.vote.calls.insert k (refreshed s r) } : State).count (.site c.site .lateCopies))

/-- A copy 1 to 127 ahead of its call closes an OPEN window with forwarding, then opens a window of its own: in the same record, or, if
the close freed that, in the lowest free one; with a vote hold of 0 that window too closes in the same event. -/
def Obligations.AheadCopyOpensNextWindow : Prop :=
  ∀ (s : State) (c : Copy) (rest : List Copy) (k : Nat) (r : CallRecord), s.vote.inbox = c :: rest → c.callType ≠ .ping →
    s.mgmt.run = .run → s.callOf c.radio c.tag = some (k, r) → 1 ≤ (c.seq - r.seq).toNat → (c.seq - r.seq).toNat ≤ 127 →
    (r.isOpen = false → exec .reception s = .next (openedIn k (windowOpened s c r) (reported s c rest))) ∧
    (r.isOpen = true → r.endSeen = false →
      exec .reception s = .next (openedIn k (windowOpened s c r) (windowClosed k r (reported s c rest)))) ∧
    (r.isOpen = true → r.endSeen = true → ∀ j < 48, (s.vote.calls.erase k).at? j = none →
      (∀ i < j, ((s.vote.calls.erase k).at? i).isSome = true) →
      exec .reception s = .next (openedIn j (recordOf s c) (windowClosed k r (reported s c rest))))

/-- A window whose deadline has passed is closed with forwarding, and a record whose hang deadline has passed is freed; an expiry that
finds the deadline not yet passed, the window closed or the record free changes nothing. -/
def Obligations.WindowAndHangExpiry : Prop :=
  (∀ (s : State) (k : Nat) (r : CallRecord), s.vote.calls.at? k = some r →
    (r.isOpen = true → r.deadline ≤ s.now → exec (.windowExpiry k) s = .next (windowClosed k r s)) ∧
    ((r.isOpen = false ∨ s.now < r.deadline) → exec (.windowExpiry k) s = .next s) ∧
    (r.isOpen = false → r.hangDeadline ≤ s.now →
      exec (.callHangExpiry k) s = .next { s with vote.calls := s.vote.calls.erase k }) ∧
    (r.isOpen = true → r.hangDeadline ≤ s.now →
      exec (.callHangExpiry k) s = .next { windowClosed k r s with vote.calls := s.vote.calls.erase k }) ∧
    (s.now < r.hangDeadline → exec (.callHangExpiry k) s = .next s)) ∧
  ∀ (s : State) (k : Nat), s.vote.calls.at? k = none →
    exec (.windowExpiry k) s = .next s ∧ exec (.callHangExpiry k) s = .next s

/-- STOP_VOTE_CLOSE closes every OPEN window with forwarding, in rising record number (the model's choice, log 34): its best copy
offered as an UPLINK with UNVOTED clear and counted as a voted burst, or a lost burst counted. A record with END seen is freed, the
others stay with their window CLOSED. -/
def Obligations.StopClosesOpenWindows : Prop :=
  ∀ s : State, s.vote.stopReport = true → s.vote.calls.sorted = true →
    let t := (s.vote.calls.filter fun p => p.2.isOpen).foldl (fun u p => windowClosed p.1 p.2 u) { s with vote.stopReport := false }
    exec .stopVoteClose s = .next t ∧
      ∀ k, t.vote.calls.at? k =
        match s.vote.calls.at? k with
        | some r => if r.isOpen && r.endSeen then none else some { r with isOpen := false }
        | none => none

/-! ### The radio location table: reports -/

/-- In LOAD a report, a registration and an acknowledgement are discarded uncounted; in RUN one from an OFF site is discarded and
counted as an untracked report. Neither changes an entry nor sends anything. That LOAD discards uncounted also what comes from an
OFF site is the model's reading (log 20). -/
def Obligations.LoadAndOffDiscards : Prop :=
  ∀ s : State,
    (∀ r rest, s.loc.reports = r :: rest →
      (s.mgmt.run = .load → exec .report s = .next { s with loc.reports := rest }) ∧
      (s.mgmt.run = .run → (s.site r.site).state = .off →
        exec .report s = .next (({ s with loc.reports := rest } : State).count (.global .untrackedReports)))) ∧
    (∀ r rest, s.loc.frames = .registration r :: rest →
      (s.mgmt.run = .load → exec .registration s = .next (frameTaken s rest)) ∧
      (s.mgmt.run = .run → (s.site r.site).state = .off →
        exec .registration s = .next ((frameTaken s rest).count (.global .untrackedReports)))) ∧
    ∀ a rest, s.loc.frames = .ack a :: rest →
      (s.mgmt.run = .load → exec .directiveAck s = .next (frameTaken s rest)) ∧
      (s.mgmt.run = .run → (s.site a.site).state = .off →
        exec .directiveAck s = .next ((frameTaken s rest).count (.global .untrackedReports)))

/-- A decoded report of a radio with no entry creates an UNATTACHED entry in the lowest free slot, or in the one an eviction frees, of
the class of the lowest-numbered valid range that holds the radio, else GROUND; a NO_DECODE one, and one for which no slot can be had,
which is counted, create none. -/
def Obligations.ReportCreatesEntry : Prop :=
  (∀ (s : State) (r : Report) (rest : List Report), s.loc.reports = r :: rest → s.mgmt.run = .run → (s.site r.site).state ≠ .off →
    s.lookup r.radio = none →
    (∀ q k evicts, adjustedQuality s r.site r.quality = some q → SlotFor s k evicts →
      exec .report s =
        .next
          (withConditions s
            (let t := (slotTaken k evicts { s with loc.reports := rest }).writeEntry k
                (some { createdEntry s r.radio r.site q with emergency := r.emergency })
              if r.emergency then t.offerCore (noticeOf s .emergency r.radio 0 0 0 .none) else t))) ∧
    (r.quality ≠ 255 → NoSlot s →
      exec .report s = .next (({ s with loc.reports := rest } : State).count (.global .untrackedReports))) ∧
    (r.quality = 255 → exec .report s = .next { s with loc.reports := rest })) ∧
  ∀ (ranges : Tab ClassRange) (radio : RadioId),
    let holds (j : Nat) : Prop :=
      (ranges.atD j ClassRange.default).valid = true ∧ (ranges.atD j ClassRange.default).first ≤ radio ∧
        radio ≤ (ranges.atD j ClassRange.default).last
    (∀ k < 16, holds k → (∀ j < k, ¬holds j) → classOf ranges radio = (ranges.atD k ClassRange.default).cls) ∧
      ((∀ k < 16, ¬holds k) → classOf ranges radio = .ground)

/-- A report applied to an entry, in one event: the emergency flag set with its notice, the candidate list updated by the arithmetic of
R29 to R31, a SHADOW entry heard by its UP serving site recovered with its notice, and then the roam decision. -/
def Obligations.ReportUpdatesEntry : Prop :=
  ∀ (s : State) (r : Report) (rest : List Report) (k : Nat) (e : Entry) (cs : List Candidate), s.loc.reports = r :: rest →
    s.mgmt.run = .run → (s.site r.site).state ≠ .off → Holds s r.radio k e →
    CandidatesAfter s e r.site (adjustedQuality s r.site r.quality) false cs →
    let recovers := e.state = .shadow ∧ e.serving = r.site ∧ r.quality ≠ 255 ∧ (s.site r.site).state = .up
    exec .report s =
      .next
        (withConditions s
          (let t := ({ s with loc.reports := rest } : State).writeEntry k
              (some
                { e with
                  emergency := e.emergency || r.emergency, cands := cs, state := if recovers then .attached else e.state })
            let u :=
              if r.emergency && !e.emergency then
                t.offerCore (noticeOf s .emergency e.radio e.serving e.serving e.talkgroup .none)
              else t
            let v :=
              if recovers then u.offerCore (noticeOf s .recovered e.radio r.site r.site e.talkgroup .none) else u
            v.roamDecision k))

/-- The roam decision: nothing for an UNATTACHED or MOVING entry, or with no eligible target, or from ATTACHED when the best target is
not enough better, too soon, or in emergency; otherwise a handover to the best target starts, unless its lane cannot take the SERVE. -/
def Obligations.RoamDecisionTaken : Prop :=
  ∀ (s : State) (k : Nat) (e : Entry), s.entry k = some e →
    (e.state = .unattached ∨ e.state = .moving → s.roamDecision k = s) ∧
    ((∀ c ∈ e.cands, ¬EligibleTarget s e c) → s.roamDecision k = s) ∧
    ∀ b, BestTarget s e b →
      (e.state = .attached → ¬AttachedTakes s e b → s.roamDecision k = s) ∧
      (e.state = .shadow ∨ (e.state = .attached ∧ AttachedTakes s e b) →
        (LaneTakes s b.site → s.roamDecision k = handoverStarted k e b.site .directed e.cands s) ∧
        (¬LaneTakes s b.site → s.roamDecision k = refusedAtLane b.site s))

/-! ### Registrations and acknowledgements -/

/-- A registration, not POWER_OFF, through an UP site attaches an entry that is not MOVING: UNATTACHED or SHADOW to ATTACHED, or
from another serving site, with the directive and notice of each case; through a site not UP it counts as a report alone. That the
unknown-talkgroup report is judged before the roam decision, and that a registration through a site not UP still runs that decision,
are the model's readings (logs 28, 33). -/
def Obligations.RegistrationAttaches : Prop :=
  ∀ (s : State) (r : Registration) (rest : List LocationFrame) (k : Nat) (e : Entry) (cs : List Candidate),
    s.loc.frames = .registration r :: rest → s.mgmt.run = .run → Holds s r.radio k e →
    CandidatesAfter s e r.site (some (registeredQuality s r)) true cs →
    let x := r.site
    let g := r.talkgroup
    let t := frameTaken s rest
    let e1 : Entry := { e with cands := cs, talkgroup := g, state := .attached }
    let settled (u : State) := exec .registration s = .next (withConditions s ((notedUnknown g u).roamDecision k))
    ((s.site x).state = .up → r.reason ≠ .powerOff →
      (e.state = .unattached →
        settled ((t.writeEntry k (some { e1 with serving := x, dwell := 0 })).offerCore (noticeOf s .roam e.radio 0 x g .register))) ∧
      (e.state = .attached → e.serving = x →
        settled ((t.writeEntry k (some e1)).offerCore (noticeOf s .roam e.radio x x g .register))) ∧
      (e.state = .shadow → e.serving = x →
        settled ((t.writeEntry k (some e1)).offerCore (noticeOf s .recovered e.radio x x g .none))) ∧
      (e.state = .attached ∨ e.state = .shadow → e.serving ≠ x →
        settled
          (((t.issueDirective (directiveOf e e.serving .release x e.number)).writeEntry k
            (some { e1 with serving := x, dwell := 0 })).offerCore (noticeOf s .roam e.radio e.serving x g .self)))) ∧
    ((s.site x).state ≠ .off → (s.site x).state ≠ .up →
      exec .registration s = .next (withConditions s ((t.writeEntry k (some { e with cands := cs })).roamDecision k)))

/-- A registration, not POWER_OFF, through an UP site ends the handover of a MOVING entry: through the target it commits, through
the serving site it cancels, through a third site the radio roamed of itself; each with its directives and notice. That the
unknown-talkgroup report is judged before the roam decision is the model's reading (log 28). -/
def Obligations.RegistrationEndsHandover : Prop :=
  ∀ (s : State) (r : Registration) (rest : List LocationFrame) (k : Nat) (e : Entry) (h : Handover) (cs : List Candidate),
    s.loc.frames = .registration r :: rest → s.mgmt.run = .run → Holds s r.radio k e → (s.site r.site).state = .up →
    r.reason ≠ .powerOff → e.state = .moving → e.handover = some h →
    CandidatesAfter s e r.site (some (registeredQuality s r)) true cs →
    let x := r.site
    let g := r.talkgroup
    let t := frameTaken s rest
    let e1 : Entry := { e with cands := cs, talkgroup := g, state := .attached, handover := none }
    let settled (u : State) := exec .registration s = .next (withConditions s ((notedUnknown g u).roamDecision k))
    (x = h.target →
      settled
        (((t.issueDirective (directiveOf e e.serving .release x e.number)).writeEntry k
          (some { e1 with serving := x, dwell := 0 })).offerCore
          (noticeOf s .roam e.radio e.serving x g (match h.origin with | .directed => .directed | .forced => .forced)))) ∧
    (x ≠ h.target → x = e.serving →
      settled
        (((t.issueDirective (directiveOf e h.target .cancel e.serving e.number)).writeEntry k (some e1)).offerCore
          (noticeOf s .roam e.radio x x g .register))) ∧
    (x ≠ h.target → x ≠ e.serving →
      settled
        ((((t.issueDirective (directiveOf e h.target .cancel e.serving e.number)).issueDirective
          (directiveOf e e.serving .release x e.number)).writeEntry k (some { e1 with serving := x, dwell := 0 })).offerCore
          (noticeOf s .roam e.radio e.serving x g .self)))

/-- A registration of a radio with no entry: POWER_OFF only sends DEREGISTER; through an UP site an ATTACHED entry is made, or with
no slot to be had REFUSE and REFUSED go out and the refusal is counted; through another site it creates an entry as a report does.
That POWER_OFF sends DEREGISTER through a site that is not UP too, and that the REFUSE carries 0 for talkgroup 65535, are the
model's readings (logs 21, 12). -/
def Obligations.RegistrationOfUnknownRadio : Prop :=
  ∀ (s : State) (r : Registration) (rest : List LocationFrame), s.loc.frames = .registration r :: rest → s.mgmt.run = .run →
    (s.site r.site).state ≠ .off → s.lookup r.radio = none →
    let x := r.site
    let g := r.talkgroup
    let t := frameTaken s rest
    let new := createdEntry s r.radio x (registeredQuality s r)
    (r.reason = .powerOff →
      exec .registration s = .next (t.offerCore (noticeOf s .deregister r.radio 0 0 g .register))) ∧
    (r.reason ≠ .powerOff → (s.site x).state = .up → ∀ k evicts, SlotFor s k evicts →
      exec .registration s =
        .next
          (withConditions s
            (notedUnknown g
              (((slotTaken k evicts t).writeEntry k (some { new with state := .attached, serving := x, talkgroup := g })).offerCore
                (noticeOf s .roam r.radio 0 x g .register))))) ∧
    (r.reason ≠ .powerOff → (s.site x).state = .up → NoSlot s →
      exec .registration s =
        .next
          (((t.issueDirective
            { site := x, kind := .refuse, radio := r.radio, talkgroup := g, other := 0, number := 0, tableFull := true }).offerCore
              (noticeOf s .refused r.radio 0 x g .register)).count (.global .refusedRegistrations))) ∧
    (r.reason ≠ .powerOff → (s.site x).state ≠ .up → ∀ k evicts, SlotFor s k evicts →
      exec .registration s = .next (withConditions s ((slotTaken k evicts t).writeEntry k (some new)))) ∧
    (r.reason ≠ .powerOff → (s.site x).state ≠ .up → NoSlot s →
      exec .registration s = .next (t.count (.global .untrackedReports)))

/-- A POWER_OFF registration through an UP site: after its candidate update the entry leaves service, with RELEASE or CANCEL to the
sites it used and a DEREGISTER notice; it is freed, or with emergency set stays UNATTACHED. -/
def Obligations.PowerOffRegistration : Prop :=
  ∀ (s : State) (r : Registration) (rest : List LocationFrame) (k : Nat) (e : Entry) (cs : List Candidate),
    s.loc.frames = .registration r :: rest → s.mgmt.run = .run → Holds s r.radio k e → (s.site r.site).state = .up →
    r.reason = .powerOff → CandidatesAfter s e r.site (some (registeredQuality s r)) true cs →
    exec .registration s =
      .next
        (withConditions s
          (((leaving e (frameTaken s rest)).writeEntry k
            (if e.emergency then some { e with cands := cs, state := .unattached, serving := 0, handover := none } else none)).offerCore
            (noticeOf s .deregister e.radio e.serving 0 e.talkgroup .register)))

/-- An acknowledgement from a handover's target with its number: ACCEPT marks the handover accepted, BUSY abandons it; any other is
stale, which is counted and changes no entry. -/
def Obligations.AcknowledgementMatched : Prop :=
  ∀ (s : State) (a : DirectiveAck) (rest : List LocationFrame), s.loc.frames = .ack a :: rest → s.mgmt.run = .run →
    (s.site a.site).state ≠ .off →
    (∀ k e h, Holds s a.radio k e → e.state = .moving → e.handover = some h → a.site = h.target → a.number = e.number →
      exec .directiveAck s =
        .next
          (if a.accept then (frameTaken s rest).writeEntry k (some { e with handover := some { h with accepted := true } })
            else (frameTaken s rest).abandon k e h)) ∧
    (s.lookup a.radio = none ∨
        (∃ k e, s.lookup a.radio = some (k, e) ∧
          (e.state ≠ .moving ∨ ∃ h, e.handover = some h ∧ (a.site ≠ h.target ∨ a.number ≠ e.number))) →
      exec .directiveAck s = .next ((frameTaken s rest).count (.global .staleAcks)))

/-- Abandoning a handover sends CANCEL, sets the failed target for 8 epochs and gives ROAM_FAILED; the entry is ATTACHED if its serving
site is UP and was heard within the shadow hold, UNATTACHED if it has none, else SHADOW with its notice. -/
def Obligations.AbandonEffect : Prop :=
  ∀ (s : State) (k : Nat) (e : Entry) (h : Handover),
    let t := s.issueDirective (directiveOf e h.target .cancel e.serving e.number)
    let e1 : Entry := { e with handover := none, failed := some { site := h.target, remaining := 8 } }
    let told :=
      noticeOf s .roamFailed e.radio e.serving h.target e.talkgroup
        (match h.origin with | .directed => .directed | .forced => .forced)
    (e.serving = 0 → s.abandon k e h = (t.writeEntry k (some { e1 with state := .unattached })).offerCore told) ∧
    (e.serving ≠ 0 → ∀ v, candOf e.serving e.cands = some v →
      ((s.site e.serving).state = .up → age s.loc.epoch v.heardEpoch < (s.policy e).shadowHold →
        s.abandon k e h = (t.writeEntry k (some { e1 with state := .attached })).offerCore told) ∧
      ((s.site e.serving).state ≠ .up ∨ (s.policy e).shadowHold ≤ age s.loc.epoch v.heardEpoch →
        s.abandon k e h =
          ((t.writeEntry k (some { e1 with state := .shadow, shadow := 0 })).offerCore told).offerCore
            (noticeOf s .shadow e.radio e.serving 0 e.talkgroup .none)))

/-! ### Epochs and the audit pass -/

/-- In RUN, once the epoch length has passed and the last pass is complete, an epoch boundary advances the counter by 1 (wrapping),
sets the next boundary, and puts every occupied slot in the visit set; otherwise it changes nothing. That it waits for the last
pass, and counts the next boundary from the one before, is the model's reading (log 19). -/
def Obligations.EpochBoundaryAdvances : Prop :=
  ∀ s : State,
    (∀ b, s.loc.boundary = some b → s.mgmt.run = .run → b ≤ s.now → s.loc.visits = [] →
      exec .epochBoundary s =
        .next
          { s with
            loc.epoch := s.loc.epoch + 1
            loc.boundary := some (b + (250 + 10 * s.loc.timing.epochAdjust))
            loc.visits := s.loc.entries.map (·.1) }) ∧
    (s.mgmt.run = .load ∨ s.loc.visits ≠ [] ∨ s.loc.boundary = none ∨ (∃ b, s.loc.boundary = some b ∧ s.now < b) →
      exec .epochBoundary s = .next s)

/-- The audit visit of an entry that is not MOVING: its counters and stale candidates first; an UNATTACHED one may be purged; an
ATTACHED one not heard goes to SHADOW; a SHADOW one past its limit is lost; then the roam decision. A slot not awaiting a visit is left
alone. -/
def Obligations.AuditOfSettledEntry : Prop :=
  (∀ (s : State) (k : Nat) (e : Entry), s.mgmt.run = .run → k ∈ s.loc.visits → Occupied s k e →
    let t := visitTaken s k
    let e1 := audited s e
    let visit := exec (.auditVisit k) s
    (e.state = .unattached → PurgeDue s e1 →
      visit = .next (withConditions s ((t.writeEntry k none).count (.global .purgedEntries)))) ∧
    (e.state = .unattached → ¬PurgeDue s e1 → visit = .next (t.writeEntry k (some e1))) ∧
    (e.state = .attached → ∀ v, candOf e.serving e1.cands = some v →
      visit =
        .next
          (if (s.policy e).shadowHold ≤ age s.loc.epoch v.heardEpoch then
            ((t.writeEntry k (some { e1 with state := .shadow, shadow := 0 })).offerCore
              (noticeOf s .shadow e.radio e.serving 0 e.talkgroup .none)).roamDecision k
          else (t.writeEntry k (some e1)).roamDecision k)) ∧
    (e.state = .shadow → e1.shadow < (s.policy e).lostLimit → visit = .next ((t.writeEntry k (some e1)).roamDecision k)) ∧
    (e.state = .shadow → (s.policy e).lostLimit ≤ e1.shadow → ¬PurgeDue s e1 →
      visit =
        .next
          ((t.writeEntry k (some { e1 with state := .unattached, serving := 0 })).offerCore
            (noticeOf s .lost e.radio e.serving 0 e.talkgroup .none))) ∧
    (e.state = .shadow → (s.policy e).lostLimit ≤ e1.shadow → PurgeDue s e1 →
      visit =
        .next
          (withConditions s
            ((((t.writeEntry k (some { e1 with state := .unattached, serving := 0 })).offerCore
              (noticeOf s .lost e.radio e.serving 0 e.talkgroup .none)).writeEntry k none).count (.global .purgedEntries))))) ∧
  ∀ (s : State) (k : Nat), s.mgmt.run = .load ∨ k ∉ s.loc.visits → exec (.auditVisit k) s = .next s

/-- The audit visit of a MOVING entry: below its roam timeout only its counters move; at it, with retries left, SERVE and MOVE are sent
again under the next handover number; with none left the handover is abandoned, and the roam decision and purge follow. -/
def Obligations.AuditOfMovingEntry : Prop :=
  ∀ (s : State) (k : Nat) (e : Entry) (h : Handover), s.mgmt.run = .run → k ∈ s.loc.visits → Occupied s k e →
    e.state = .moving → (audited s e).handover = some h →
    let t := visitTaken s k
    let e1 := audited s e
    let visit := exec (.auditVisit k) s
    (h.age < (s.policy e).roamTimeout → visit = .next (t.writeEntry k (some e1))) ∧
    ((s.policy e).roamTimeout ≤ h.age → h.retries < (s.policy e).retryLimit →
      visit =
        .next
          (((t.issueDirective (directiveOf e h.target .serve e.serving (e.number + 1))).issueDirective
            (directiveOf e e.serving .move h.target (e.number + 1))).writeEntry k
            (some
              { e1 with
                number := e.number + 1, handover := some { h with retries := h.retries + 1, age := 0, accepted := false } }))) ∧
    ((s.policy e).roamTimeout ≤ h.age → (s.policy e).retryLimit ≤ h.retries →
      (e.serving ≠ 0 → visit = .next (((t.writeEntry k (some e1)).abandon k e1 h).roamDecision k)) ∧
      (e.serving = 0 → ¬PurgeDue s e1 → visit = .next ((t.writeEntry k (some e1)).abandon k e1 h)) ∧
      (e.serving = 0 → PurgeDue s e1 →
        visit =
          .next
            (withConditions s ((((t.writeEntry k (some e1)).abandon k e1 h).writeEntry k none).count (.global .purgedEntries)))))

/-! ### Site changes and STOP at an entry -/

/-- At the report that a site left UP, an ATTACHED entry it serves goes to SHADOW with its notice and a handover to it is abandoned;
any other entry is unchanged, and without such a report nothing changes. That reports are taken oldest first, so that a removal
waiting first holds this one off, and that the command without its report changes nothing, are the model's (logs 15, 2). -/
def Obligations.SiteLeftUpAtEntry : Prop :=
  (∀ (s : State) (k x : Nat) (e : Entry),
    s.nextEntryReport k = some { slot := k, site := x, news := .leftUp } → Occupied s k e →
    let t := newsTaken s k x .leftUp
    (e.state = .attached → e.serving = x →
      exec (.siteLeftUpEntry k) s =
        .next
          ((t.writeEntry k (some { e with state := .shadow, shadow := 0 })).offerCore
            (noticeOf s .shadow e.radio x 0 e.talkgroup .none))) ∧
    (∀ h, e.state = .moving → e.handover = some h → h.target = x → exec (.siteLeftUpEntry k) s = .next (t.abandon k e h)) ∧
    (e.state = .unattached ∨ e.state = .shadow ∨ (e.state = .attached ∧ e.serving ≠ x) ∨
        (e.state = .moving ∧ ∀ h, e.handover = some h → h.target ≠ x) →
      exec (.siteLeftUpEntry k) s = .next t)) ∧
  ∀ (s : State) (k : Nat), (∀ r, s.nextEntryReport k = some r → r.news ≠ .leftUp) → exec (.siteLeftUpEntry k) s = .next s

/-- At the report of a site's removal, an ATTACHED or SHADOW entry it serves is lost, a handover to it is abandoned, a MOVING entry
it serves has no serving site any more, and every entry loses its candidate record for it. That reports are taken oldest first and
that the command without its report changes nothing are the model's (logs 15, 2). -/
def Obligations.SiteRemovedAtEntry : Prop :=
  (∀ (s : State) (k x : Nat) (e : Entry),
    s.nextEntryReport k = some { slot := k, site := x, news := .removed } → Occupied s k e →
    let t := newsTaken s k x .removed
    (e.state = .attached ∨ e.state = .shadow → e.serving = x →
      exec (.siteRemovedEntry k) s =
        .next
          ((t.writeEntry k (some { e with state := .unattached, serving := 0, cands := dropCand x e.cands })).offerCore
            (noticeOf s .lost e.radio x 0 e.talkgroup .none))) ∧
    (∀ h, e.state = .moving → e.handover = some h → h.target = x →
      exec (.siteRemovedEntry k) s =
        .next ((t.abandon k e h).modifyEntry k fun e' => { e' with cands := dropCand x e'.cands })) ∧
    (∀ h, e.state = .moving → e.handover = some h → h.target ≠ x → e.serving = x →
      exec (.siteRemovedEntry k) s = .next (t.writeEntry k (some { e with serving := 0, cands := dropCand x e.cands }))) ∧
    (e.state = .unattached ∨ e.serving ≠ x → (∀ h, e.state = .moving → e.handover = some h → h.target ≠ x) →
      exec (.siteRemovedEntry k) s = .next (t.writeEntry k (some { e with cands := dropCand x e.cands })))) ∧
  ∀ (s : State) (k : Nat), (∀ r, s.nextEntryReport k = some r → r.news ≠ .removed) → exec (.siteRemovedEntry k) s = .next s

/-- STOP's end of a handover sends CANCEL and ROAM_FAILED, sets no failed target, and leaves the entry ATTACHED if its serving site
is UP, UNATTACHED if it has none, else SHADOW with its notice; an entry STOP did not concern is left alone. That the event stays due
in RUN when a START comes before it, and that the command without its event changes nothing, are the model's (logs 30, 2). -/
def Obligations.StopEndsHandover : Prop :=
  (∀ (s : State) (k : Nat) (e : Entry) (h : Handover), k ∈ s.loc.stopReports → Occupied s k e → e.state = .moving →
    e.handover = some h →
    let t := ({ s with loc.stopReports := s.loc.stopReports.filter (· != k) } : State).issueDirective
      (directiveOf e h.target .cancel e.serving e.number)
    let told :=
      noticeOf s .roamFailed e.radio e.serving h.target e.talkgroup
        (match h.origin with | .directed => .directed | .forced => .forced)
    (e.serving = 0 →
      exec (.stopHandoverEnd k) s = .next ((t.writeEntry k (some { e with handover := none, state := .unattached })).offerCore told)) ∧
    (e.serving ≠ 0 → (s.site e.serving).state = .up →
      exec (.stopHandoverEnd k) s = .next ((t.writeEntry k (some { e with handover := none, state := .attached })).offerCore told)) ∧
    (e.serving ≠ 0 → (s.site e.serving).state ≠ .up →
      exec (.stopHandoverEnd k) s =
        .next
          (((t.writeEntry k (some { e with handover := none, state := .shadow, shadow := 0 })).offerCore told).offerCore
            (noticeOf s .shadow e.radio e.serving 0 e.talkgroup .none)))) ∧
  ∀ (s : State) (k : Nat), k ∉ s.loc.stopReports → exec (.stopHandoverEnd k) s = .next s

/-! ### Sites -/

/-- A heartbeat keeps its time, interval, alarm flag and credits and is counted; in WAITING or STALLED it works the recovery run, and one
that completes it makes the site UP with its initial credit; of an OFF site it is counted as an unknown site. -/
def Obligations.HeartbeatTaken : Prop :=
  ∀ (s : State) (h : Heartbeat) (rest : List Heartbeat), s.monitor.inbox = h :: rest →
    let x := h.site
    let r := s.site x
    let t : State := { s with monitor.inbox := rest }
    let since : Option Nat := r.lastHeartbeat.map fun d => min (s.now - d) 65535
    let beaten : SiteRecord :=
      { r with interval := since.getD r.interval, lastHeartbeat := some s.now, alarm := h.alarm }
    let run := if (∃ d, since = some d ∧ d < r.cfg.stallLimit) then r.run + 1 else 1
    let noting (u : State) : Host.Outcome State Fault Refusal := .next (u.reportChange .siteAlarm s.anyAlarm u.anyAlarm)
    (r.state = .off → exec .heartbeat s = .next (t.count (.port .site .unknownSite))) ∧
    (r.state = .up ∨ r.state = .barred →
      exec .heartbeat s =
        noting
          (({ t with
              monitor.sites := s.monitor.sites.put SiteRecord.default x beaten
              egress.credits := s.egress.credits.put 0 x (min 255 (s.credits x + h.credits)) } : State).count
            (.site x .heartbeats))) ∧
    (r.state = .waiting ∨ r.state = .stalled → run < r.cfg.recoveryCount →
      exec .heartbeat s =
        noting
          (({ t with
              monitor.sites := s.monitor.sites.put SiteRecord.default x { beaten with run := run }
              egress.credits := s.egress.credits.put 0 x (min 255 (s.credits x + h.credits)) } : State).count
            (.site x .heartbeats))) ∧
    (r.state = .waiting ∨ r.state = .stalled → r.cfg.recoveryCount ≤ run → TablesCanonical s →
      exec .heartbeat s =
        noting
          ((({ t with
              monitor.sites := s.monitor.sites.put SiteRecord.default x { beaten with state := .up, run := 0 }
              egress.credits := s.egress.credits.put 0 x r.cfg.initialCredit
              reach.siteReports := s.reach.siteReports ++ [{ site := x, up := true }]
              egress.reports := s.egress.reports ++ [{ site := x, news := .up }] } : State).count
            (.site x .recoveries)).count (.site x .heartbeats)))

/-- An UP site stalls when its stall limit has passed since its last heartbeat: STALLED with its stall flag set, counted, reported
to its entries, the reach unit and the egress scheduler; otherwise the expiry changes nothing. The entries told are those that use
the site at the change, and an expiry before its deadline changes nothing: the model's (logs 15, 4). -/
def Obligations.StallExpiryStalls : Prop :=
  (∀ (s : State) (x d : Nat), (s.site x).state = .up → (s.site x).lastHeartbeat = some d → d + (s.site x).cfg.stallLimit ≤ s.now →
    exec (.stallExpiry x) s =
      .next
        (let t := ({ s with
              monitor.sites := s.monitor.sites.put SiteRecord.default x { s.site x with state := .stalled, run := 0, stall := true }
              loc.siteReports := s.loc.siteReports ++ toldEntries s x .leftUp
              reach.siteReports := s.reach.siteReports ++ [{ site := x, up := false }]
              egress.reports := s.egress.reports ++ [{ site := x, news := .flush }] } : State).count (.site x .stalls)
         t.reportChange .siteStall s.anyStall t.anyStall)) ∧
  ∀ (s : State) (x : Nat),
    ((s.site x).state ≠ .up ∨ ∀ d, (s.site x).lastHeartbeat = some d → s.now < d + (s.site x).cfg.stallLimit) →
      exec (.stallExpiry x) s = .next s

/-- The admin actions by the site's state: ENABLE takes OFF and BARRED to WAITING; BAR takes WAITING, UP and STALLED to BARRED and
flushes; REMOVE takes every state to OFF, clears credits, flushes and tells the entries; elsewhere each changes nothing. As commands
they are the action on the record alone, with no request, check or response, and the entries told are picked at the change: the
model's (logs 9, 15). -/
def Obligations.AdminActions : Prop :=
  ∀ (s : State) (x : Nat), validSite x = true →
    let r := s.site x
    let flush : List EgressReport := [{ site := x, news := .flush }]
    let left : List SiteChange := [{ site := x, up := false }]
    (r.state = .off →
      exec (.enable x) s =
        .next
          { s with
            monitor.sites :=
              s.monitor.sites.put SiteRecord.default x
                { r with state := .waiting, lastHeartbeat := none, interval := 0, run := 0 } }) ∧
    (r.state = .barred →
      exec (.enable x) s =
        .next { s with monitor.sites := s.monitor.sites.put SiteRecord.default x { r with state := .waiting, run := 0 } }) ∧
    (r.state = .waiting ∨ r.state = .up ∨ r.state = .stalled → exec (.enable x) s = .next s) ∧
    (r.state = .up →
      exec (.bar x) s =
        .next
          { s with
            monitor.sites := s.monitor.sites.put SiteRecord.default x { r with state := .barred, run := 0 }
            loc.siteReports := s.loc.siteReports ++ toldEntries s x .leftUp
            reach.siteReports := s.reach.siteReports ++ left
            egress.reports := s.egress.reports ++ flush }) ∧
    (r.state = .waiting ∨ r.state = .stalled →
      exec (.bar x) s =
        .next
          { s with
            monitor.sites := s.monitor.sites.put SiteRecord.default x { r with state := .barred, run := 0 }
            egress.reports := s.egress.reports ++ flush }) ∧
    (r.state = .off ∨ r.state = .barred → exec (.bar x) s = .next s) ∧
    (r.state = .off → exec (.remove x) s = .next s) ∧
    (r.state ≠ .off →
      exec (.remove x) s =
        .next
          (let t : State :=
            { s with
              monitor.sites :=
                s.monitor.sites.put SiteRecord.default x
                  { r with state := .off, lastHeartbeat := none, interval := 0, run := 0, alarm := false }
              egress.credits := s.egress.credits.put 0 x 0
              egress.reports := s.egress.reports ++ flush
              loc.siteReports := s.loc.siteReports ++ toldEntries s x .removed
              reach.siteReports := s.reach.siteReports ++ if r.state = .up then left else [] }
           t.reportChange .siteAlarm s.anyAlarm t.anyAlarm))

/-! ### Reach and egress -/

/-- A DOWNLINK is offered, copy by copy in rising site order, to the voice lanes of the UP sites of its reach set, and counted; one
that reaches no site is counted as unreached, a PING as discarded. A RELAY goes to its site's control lane, but is discarded if
BARRED. That an individual flood is counted also when no site is UP is the model's reading (log 26). -/
def Obligations.ReachFramesTaken : Prop :=
  (∀ (s : State) (d : Downlink) (rest : List ReachFrame), s.reach.inbox = .downlink d :: rest →
    let t : State := { s with reach.inbox := rest }
    let sites := (List.range' 1 40).filter fun x => reaches s d x
    let u := if flooded s d then t.count (.global .individualFloods) else t
    exec .downlink s =
      .next
        (if d.callType = .ping then t.count (.global .downlinksDiscarded)
          else if sites = [] then u.count (.global .unreachedBursts)
          else copiesOffered d sites (u.count (.global .downlinksReplicated)))) ∧
  ∀ (s : State) (r : Relay) (rest : List ReachFrame), s.reach.inbox = .relay r :: rest →
    let t : State := { s with reach.inbox := rest }
    ((s.site r.site).state = .barred → exec .relay s = .next (t.count (.global .relaysDiscarded))) ∧
    ((s.site r.site).state ≠ .barred → LaneTakes s r.site →
      exec .relay s =
        .next
          { t with
            egress.control := s.egress.control.put [] r.site (s.controlLane r.site ++ [.relay r])
            egress.poolUsed := s.egress.poolUsed + 1 }) ∧
    ((s.site r.site).state ≠ .barred → (s.site r.site).state ≠ .off → ¬LaneTakes s r.site →
      exec .relay s = .next (refusedAtLane r.site t)) ∧
    ((s.site r.site).state = .off → exec .relay s = .next (t.count (.site r.site .queueDrops)))

/-- A lane admits a frame of a WAITING, UP or STALLED site while it has room (16 control frames, the voice lane depth) and the pool a
slot its class may use; the core queue while it has room, 8 places and 128 slots kept back. A refusal changes no queue: it is counted,
and for lack of room reported. -/
def Obligations.LaneAndCoreAdmission : Prop :=
  (∀ (s : State) (x : Nat) (f : ControlFrame),
    ((s.site x).state = .off ∨ (s.site x).state = .barred → s.offerControl x f = (s.count (.site x .queueDrops), .noSite)) ∧
    ((s.site x).state ≠ .off → (s.site x).state ≠ .barred →
      s.offerControl x f =
        if (s.controlLane x).length < 16 ∧ s.egress.poolUsed < 1536 then
          ({ s with
              egress.control := s.egress.control.put [] x (s.controlLane x ++ [f])
              egress.poolUsed := s.egress.poolUsed + 1 }, .admitted)
        else (refusedAtLane x s, .noRoom))) ∧
  (∀ (s : State) (x : Nat) (f : DownlinkCopy),
    ((s.site x).state = .off ∨ (s.site x).state = .barred → s.offerVoice x f = (s.count (.site x .queueDrops), .noSite)) ∧
    ((s.site x).state ≠ .off → (s.site x).state ≠ .barred →
      s.offerVoice x f =
        if (s.voiceLane x).length < (s.site x).cfg.voiceDepth ∧ s.egress.poolUsed + 128 < 1536 then
          ({ s with
              egress.voice := s.egress.voice.put [] x (s.voiceLane x ++ [f])
              egress.poolUsed := s.egress.poolUsed + 1 }, .admitted)
        else (refusedAtLane x s, .noRoom))) ∧
  ∀ (s : State) (f : CoreFrame),
    s.offerCore f =
      let places : Nat := match f with | .response _ => 256 | _ => 248
      let kept : Nat := match f with | .response _ => 0 | _ => 128
      if s.egress.core.length < places ∧ s.egress.poolUsed + kept < 1536 then
        { s with egress.core := s.egress.core ++ [f], egress.poolUsed := s.egress.poolUsed + 1 }
      else
        ({ s with mgmt.alertReports := s.mgmt.alertReports ++ [{ cls := .queueDrop, value := true }] } : State).count
          (.global .coreQueueDrops)

/-- The free site transmitter, in sync, takes one control frame, or else a voice turn, of the first site after the turn pointer that
has one ready, for as many credits and slots, counted; the free core transmitter, in sync, takes the oldest frame of the core queue.
Else nothing changes; a transmitter that has sent is free. Every frame goes out with the bytes of tables 8-4, 8-5, 8-7 and 8-8, the
unit number and its CRC. That no turn is taken while a change to UP waits, that nothing is taken from the fourth invalid symbol on,
that the SENT commands end a sending, and that the pointer also decides between turns that become ready together while the
transmitter waits, are the model's (logs 13, 7, 27, 39). -/
def Obligations.TransmittersTakeAndSend : Prop :=
  (∀ (s : State) (i : Nat), s.egress.siteTx = none → PortTakes s .site → i < 40 →
    (∀ j < i, ¬TurnReady s ((s.egress.pointer + j) % 40 + 1)) →
    let x := (s.egress.pointer + i) % 40 + 1
    TurnReady s x →
    (∀ f lane, s.controlLane x = f :: lane →
      exec .siteTurn s =
        .next
          (({ s with
              egress.control := s.egress.control.put [] x lane
              egress.poolUsed := s.egress.poolUsed - 1
              egress.credits := s.egress.credits.put 0 x (s.credits x - 1)
              egress.pointer := x
              egress.siteTx := some { site := x, frames := [f.bytes s.mgmt.unit] } } : State).count (.site x .framesSent))) ∧
    (s.controlLane x = [] →
      let m := min (s.site x).cfg.releaseThreshold (s.voiceLane x).length
      exec .siteTurn s =
        .next
          (({ s with
              egress.voice := s.egress.voice.put [] x ((s.voiceLane x).drop m)
              egress.poolUsed := s.egress.poolUsed - m
              egress.credits := s.egress.credits.put 0 x (s.credits x - m)
              egress.pointer := x
              egress.siteTx :=
                some { site := x, frames := ((s.voiceLane x).take m).map fun f => f.bytes s.mgmt.unit } } : State).countBy
            m (.site x .framesSent)))) ∧
  (∀ s : State, s.egress.siteTx ≠ none ∨ ¬PortTakes s .site ∨ (∀ x, 1 ≤ x → x ≤ 40 → ¬TurnReady s x) →
    exec .siteTurn s = .next s) ∧
  (∀ (s : State) (f : CoreFrame) (rest : List CoreFrame), s.egress.coreTx = none → PortTakes s .core → s.egress.core = f :: rest →
    exec .coreTake s =
      .next
        (({ s with
            egress.core := rest
            egress.poolUsed := s.egress.poolUsed - 1
            egress.coreTx := some (f.bytes s.mgmt.unit) } : State).count (.global .coreFramesSent))) ∧
  (∀ s : State, s.egress.coreTx ≠ none ∨ ¬PortTakes s .core ∨ s.egress.core = [] → exec .coreTake s = .next s) ∧
  (∀ s : State,
    exec .siteTurnSent s = .next { s with egress.siteTx := none } ∧ exec .coreFrameSent s = .next { s with egress.coreTx := none }) ∧
  ∀ unit : BitVec 6,
    let wire (kind : Byte) (body : List Byte) : List Byte :=
      let head := kind :: unit.setWidth 8 :: byte body.length :: body
      head ++ crcTrailer head
    let number2 (n : Nat) : List Byte := [byte (n / 256), byte n]
    let number3 (n : Nat) : List Byte := [byte (n / 65536), byte (n / 256), byte n]
    let number4 (n : Nat) : List Byte := [byte (n / 16777216), byte (n / 65536), byte (n / 256), byte n]
    let callCode (c : CallType) : Byte := match c with | .group => 0 | .individual => 1 | .all => 2 | .ping => 3
    let directiveCode (k : DirectiveKind) : Byte :=
      match k with | .serve => 1 | .move => 2 | .release => 3 | .cancel => 4 | .refuse => 5
    let noticeCode (k : NoticeKind) : Byte :=
      match k with
      | .roam => 1 | .roamFailed => 2 | .shadow => 3 | .recovered => 4 | .lost => 5 | .emergency => 6 | .deregister => 7 | .refused => 8
    let causeCode (c : NoticeCause) : Byte :=
      match c with | .none => 0 | .register => 1 | .self => 2 | .directed => 3 | .forced => 4
    let classCode (c : AlertClass) : Byte :=
      match c with
      | .siteStall => 1 | .siteAlarm => 2 | .emergency => 3 | .tableFull => 4 | .callTableFull => 5 | .queueDrop => 6
      | .linkError => 7 | .unknownTalkgroup => 8
    let resultCode (r : Result) : Byte :=
      match r with
      | .ok => 0 | .badTable => 1 | .badKey => 2 | .badValue => 3 | .locked => 4 | .batchActive => 5 | .notFound => 6 | .inUse => 7
      | .wrongState => 8 | .noRoom => 9
    (∀ d : Directive,
      (ControlFrame.directive d).bytes unit =
        wire 0x21
          ([byte d.site, directiveCode d.kind] ++ number3 d.radio.toNat ++ number2 d.talkgroup.toNat ++
            [byte d.other, d.number, if d.tableFull then 1 else 0])) ∧
    (∀ r : Relay, (ControlFrame.relay r).bytes unit = wire 0x23 ([byte r.site, byte r.body.length] ++ r.body)) ∧
    (∀ d : DownlinkCopy,
      d.bytes unit =
        wire 0x22
          ([byte d.site, callCode d.burst.callType] ++ number3 d.burst.dest.toNat ++
            [d.burst.tag, d.burst.seq, if d.burst.endFlag then 1 else 0, byte d.burst.payload.length] ++ d.burst.payload)) ∧
    (∀ u : Uplink,
      (CoreFrame.uplink u).bytes unit =
        wire 0x31
          ([byte u.site] ++ number3 u.radio.toNat ++ [callCode u.callType] ++ number3 u.dest.toNat ++
            [u.tag, u.seq, byte u.quality, byte u.copies, bitsByte [u.endFlag, u.emergency, u.unvoted], byte u.payload.length] ++
            u.payload)) ∧
    (∀ n : Notice,
      (CoreFrame.notice n).bytes unit =
        wire 0x32
          ([noticeCode n.kind] ++ number3 n.radio.toNat ++ [byte n.fromSite, byte n.toSite] ++ number2 n.talkgroup.toNat ++
            [causeCode n.cause] ++ number4 n.epoch.toNat)) ∧
    (∀ a : Alert,
      (CoreFrame.alert a).bytes unit =
        wire 0x33
          ([classCode a.cls, a.flags] ++ ((List.range 5).map fun i => a.stalls.extractLsb' (8 * i) 8) ++ number4 a.epoch.toNat)) ∧
    ∀ r : Response,
      (CoreFrame.response r).bytes unit =
        wire 0x42 (number2 r.tag.toNat ++ [resultCode r.result, byte r.body.length] ++ r.body)

/-- FLUSH empties both lanes of a site, frees their slots and counts every frame removed, with no report; SITE_UP_EGRESS takes the report
that lets a site's held lanes go, and SITE_CHANGE_REACH takes the reach unit's, which keeps nothing of it (the model's reading,
logs 13, 14). -/
def Obligations.FlushAndSiteChanges : Prop :=
  (∀ (s : State) (x : Nat), s.nextEgressReport x = some { site := x, news := .flush } →
    exec (.flush x) s =
        .next
          (({ s with
              egress.reports := s.egress.reports.erase { site := x, news := .flush }
              egress.control := s.egress.control.erase x
              egress.voice := s.egress.voice.erase x
              egress.poolUsed :=
                s.egress.poolUsed - ((s.controlLane x).length + (s.voiceLane x).length) } : State).countBy
            ((s.controlLane x).length + (s.voiceLane x).length) (.site x .queueDrops)) ∧
      exec (.siteUpEgress x) s = .next s) ∧
  (∀ (s : State) (x : Nat), s.nextEgressReport x = some { site := x, news := .up } →
    exec (.siteUpEgress x) s = .next { s with egress.reports := s.egress.reports.erase { site := x, news := .up } } ∧
      exec (.flush x) s = .next s) ∧
  (∀ (s : State) (x : Nat), s.nextEgressReport x = none →
    exec (.siteUpEgress x) s = .next s ∧ exec (.flush x) s = .next s) ∧
  ∀ (s : State), exec .siteChangeReach s = .next { s with reach.siteReports := s.reach.siteReports.drop 1 }

/-! ### Management requests -/

/-- A request enters the request queue while fewer than 4 wait, and else is discarded and counted. The first of R142's checks that
fails gives a request's result and the request changes nothing: length, then a batch in progress, then an undefined code, then LOCK.
A request that names no defined table or action is completed by any row of its kind, and a row that is not the request's changes
nothing: the model's choices (logs 10, 2). -/
def Obligations.RequestsQueuedAndChecked : Prop :=
  (∀ (s : State) (r : Request) (rest : List Request), s.mgmt.inbox = r :: rest →
    (s.mgmt.requests.length < 4 →
      exec .mgmtRequest s = .next { s with mgmt.inbox := rest, mgmt.requests := s.mgmt.requests ++ [r] }) ∧
    (4 ≤ s.mgmt.requests.length →
      exec .mgmtRequest s = .next (({ s with mgmt.inbox := rest } : State).count (.global .requestOverflows)))) ∧
  ∀ (c : Instr) (s : State) (r : Request) (rest : List Request), Front s r rest →
    let refused (res : Result) : Host.Outcome State Fault Refusal :=
      .next (answeredWith r res (if r.kind = .batch then [0] else []) (taken s rest))
    let heldOff := r.kind = .write ∨ r.kind = .batch ∨ r.kind = .control ∨ r.kind = .radioAction ∨ r.kind = .clearCounters
    let locked := r.kind = .write ∨ r.kind = .batch ∨ (r.kind = .control ∧ (r.body = [1] ∨ r.body = [2]))
    (Serves c r →
      (¬LengthRight r → exec c s = refused .badValue) ∧
      (LengthRight r → s.mgmt.batch ≠ none → heldOff → exec c s = refused .batchActive) ∧
      (LengthRight r → s.mgmt.batch = none ∨ ¬heldOff → CodeUndefined r →
        exec c s = refused (if r.kind = .read ∨ r.kind = .write then .badTable else .badValue)) ∧
      (LengthRight r → s.mgmt.batch = none → ¬CodeUndefined r → s.mgmt.lock = true → locked → exec c s = refused .locked)) ∧
    (∀ k, completedKind c = some k → ¬Serves c r → exec c s = .next s)

/-- IDENTIFY, STATUS and the READs are answered OK with the bytes of table 9-9, or BAD_KEY or NOT_FOUND, and change nothing but the
queues; they are served under LOCK and during a batch. The model's choices in it: the figures of a STATUS are of one moment (log 23)
and its body has the 27 bytes listed (log 37), the time left to a passed deadline reads 0 (log 26), READ CALL has no last-activity
time (log 35). -/
def Obligations.ReadsAnswered : Prop :=
  ∀ (s : State) (r : Request) (rest : List Request), Front s r rest →
    let answered (a : Result) (body : List Byte) : Host.Outcome State Fault Refusal := .next (answeredWith r a body (taken s rest))
    let number2 (n : Nat) : List Byte := [byte (n / 256), byte n]
    let number3 (n : Nat) : List Byte := [byte (n / 65536), byte (n / 256), byte n]
    let number4 (n : Nat) : List Byte := [byte (n / 16777216), byte (n / 65536), byte (n / 256), byte n]
    let siteBits (p : Nat → Bool) : List Byte := (List.range 5).map fun i => bitsByte ((List.range 8).map fun j => p (8 * i + j + 1))
    let runCode (m : RunState) : Byte := match m with | .load => 0 | .run => 1
    let siteCode (x : SiteState) : Byte := match x with | .off => 0 | .waiting => 1 | .up => 2 | .stalled => 3 | .barred => 4
    let classCode (c : RadioClass) : Byte := match c with | .ground => 0 | .vehicle => 1 | .aircraft => 2 | .command => 3
    let entryCode (x : RadioState) : Byte := match x with | .unattached => 0 | .attached => 1 | .moving => 2 | .shadow => 3
    let callCode (c : CallType) : Byte := match c with | .group => 0 | .individual => 1 | .all => 2 | .ping => 3
    (r.kind = .identify → r.body = [] →
      exec .identify s =
        answered .ok [0x20, 0x40, 1, s.mgmt.unit.setWidth 8, 0x08, 0x00, 40, 0x01, 0x00, 48, 0x06, 0x00]) ∧
    (r.kind = .status → r.body = [] →
      exec .status s =
        answered .ok
          ([runCode s.mgmt.run,
            bitsByte
              [s.mgmt.lock, s.reach.floodOverride, s.classifier.sitePort.inSync, s.classifier.corePort.inSync, s.mgmt.batch.isSome],
            bitsByte [s.mgmt.causes.powerOn, s.mgmt.causes.pin, s.mgmt.causes.command], s.mgmt.flags, s.mgmt.enables] ++
            siteBits (fun x => (s.site x).stall) ++ number4 s.loc.epoch.toNat ++ number2 s.loc.entries.length ++
            number2 (s.loc.entries.countP fun p => p.2.state = .unattached && !p.2.emergency) ++ [byte s.vote.calls.length] ++
            number2 (1536 - s.egress.poolUsed) ++ number2 s.egress.core.length ++
            (match s.mgmt.batch with
              | some b => number2 b.tag.toNat ++ [byte b.items, byte b.applied]
              | none => [0, 0, 0, 0]))) ∧
    (∀ k1 k0 : Byte,
      let key := k1.toNat * 256 + k0.toNat
      (r.kind = .read → r.body = [1, k1, k0] →
        exec .readSite s =
          if 1 ≤ key ∧ key ≤ 40 then
            let q := s.site key
            answered .ok
              ([BitVec.ofInt 8 q.cfg.offset, BitVec.ofInt 8 q.cfg.bias] ++ number2 q.cfg.roamInLimit ++ number2 q.cfg.stallLimit ++
                [byte q.cfg.recoveryCount, byte q.cfg.initialCredit, byte q.cfg.releaseThreshold, byte q.cfg.voiceDepth,
                  siteCode q.state] ++
                number2 (match q.lastHeartbeat with | some d => min (s.now - d) 65535 | none => 65535) ++ number2 q.interval ++
                [byte q.run, bitsByte [q.alarm, q.stall], byte (s.credits key)] ++ number2 (s.load key) ++
                [byte (s.controlLane key).length, byte (s.voiceLane key).length])
          else answered .badKey []) ∧
      (r.kind = .read → r.body = [2, k1, k0] →
        let policy (p : ClassPolicy) :=
          answered .ok
            [byte p.weight, byte p.decay, byte p.hysteresis, byte p.dwell, byte (p.floor / 256), byte p.floor, byte p.shadowHold,
              byte p.lostLimit, byte p.roamTimeout, byte p.retryLimit]
        exec .readClass s =
          match key with
          | 0 => policy s.loc.policies.ground
          | 1 => policy s.loc.policies.vehicle
          | 2 => policy s.loc.policies.aircraft
          | 3 => policy s.loc.policies.command
          | _ => answered .badKey []) ∧
      (r.kind = .read → r.body = [3, k1, k0] →
        exec .readRange s =
          if key ≤ 15 then
            let f := s.loc.ranges.atD key ClassRange.default
            answered .ok (number3 f.first.toNat ++ number3 f.last.toNat ++ [classCode f.cls, if f.valid then 1 else 0])
          else answered .badKey []) ∧
      (r.kind = .read → r.body = [4, k1, k0] →
        exec .readGroup s =
          if key ≤ 255 then
            let q := s.row key
            answered .ok
              (number2 q.talkgroup.toNat ++ siteBits (fun x => q.pinned.getLsbD (x - 1)) ++ [bitsByte [q.flood, q.valid]] ++
                (List.range' 1 40).flatMap (fun x => number2 (s.memberCount key x)) ++ number2 (s.emergencyCount key))
          else answered .badKey []) ∧
      (r.kind = .read → r.body = [5, k1, k0] →
        exec .readTiming s =
          if key = 0 then
            answered .ok
              [byte s.loc.timing.epochAdjust, byte s.loc.timing.voteHold, byte s.loc.timing.callHang,
                byte s.loc.timing.staleLimit, byte s.loc.timing.purgeLimit]
          else answered .badKey []) ∧
      (r.kind = .read → r.body = [7, k1, k0] →
        exec .readCall s =
          if key ≤ 47 then
            match s.vote.calls.at? key with
            | some c =>
              answered .ok
                (number3 c.radio.toNat ++
                  [c.tag, callCode c.callType] ++ number3 c.dest.toNat ++
                  [c.seq, bitsByte [c.isOpen, c.best.isSome, c.endSeen, c.emergencySeen]] ++
                  (if c.isOpen then number2 (c.deadline - s.now) else [0, 0]) ++
                  (match c.best with | some b => [byte b.site, byte b.quality] | none => [0, 0]) ++ [byte c.copies] ++
                  number2 (c.hangDeadline - s.now))
            | none => answered .notFound []
          else answered .badKey []) ∧
      (r.kind = .read → r.body = [8, k1, k0] →
        exec .readCounters s =
          if key ≤ 42 then
            let n := if key = 0 then 17 else if key ≤ 40 then 7 else 10
            let counter (i : Nat) : Counter := s.mgmt.counters.atD (key * 32 + i) Counter.zero
            answered .ok
              ((List.range n).flatMap (fun i => number4 (counter i).value.toNat) ++
                (List.range ((n + 7) / 8)).map fun j =>
                  bitsByte ((List.range 8).map fun i => decide (8 * j + i < n) && (counter (8 * j + i)).wrapped))
          else answered .badKey [])) ∧
    ∀ sel v2 v1 v0 : Byte, r.kind = .read → r.body = [6, sel, v2, v1, v0] →
      let value := v2.toNat * 65536 + v1.toNat * 256 + v0.toNat
      let epochs (e : Epoch) : Byte := byte (min (s.loc.epoch - e).toNat 255)
      let entry (k : Nat) (e : Entry) : Host.Outcome State Fault Refusal :=
        answered .ok
          (number2 k ++ number3 e.radio.toNat ++
            [classCode e.cls, entryCode e.state] ++ number2 e.talkgroup.toNat ++
            [byte e.serving, e.number, bitsByte [e.handover.isSome, e.failed.isSome, e.emergency]] ++
            (match e.handover with
              | some h =>
                [byte h.target, if h.origin = .forced then 1 else 0, byte h.retries, byte h.age, if h.accepted then 1 else 0]
              | none => [0, 0, 0, 0, 0]) ++
            [byte e.dwell, byte e.shadow] ++
            (match e.failed with | some f => [byte f.site, byte f.remaining] | none => [0, 0]) ++
            number4 s.loc.epoch.toNat ++ [byte e.cands.length] ++
            e.cands.flatMap fun c =>
              [byte c.site] ++ number2 c.score ++ number2 (effective s e c) ++ [epochs c.scoreEpoch, epochs c.heardEpoch])
      (sel = 0 → (value = 0 ∨ value = 0xFFFFFF) → exec .readRadio s = answered .badKey []) ∧
      (sel = 0 → value ≠ 0 → value ≠ 0xFFFFFF →
        exec .readRadio s =
          match s.lookup (BitVec.ofNat 24 value) with
          | some (k, e) => entry k e
          | none => answered .notFound []) ∧
      (sel = 1 →
        exec .readRadio s =
          if value ≤ 2047 then
            match s.entry value with
            | some e => entry value e
            | none => answered .notFound []
          else answered .badKey []) ∧
      (2 ≤ sel.toNat → exec .readRadio s = answered .badKey [])

/-- A WRITE of a SITE, CLASS or TIMING record stores every field, each outside its range as the nearest end, and a SITE write then does
its admin action; a key outside the table is answered BAD_KEY and changes nothing. -/
def Obligations.SettingsWritten : Prop :=
  ∀ (s : State) (r : Request) (rest : List Request) (k1 k0 : Byte), Front s r rest → Unheld s → r.kind = .write →
    let key := k1.toNat * 256 + k0.toNat
    let t := taken s rest
    (∀ adj hold hang stale purge : Byte, r.body = [5, k1, k0, adj, hold, hang, stale, purge] →
      exec .writeTiming s =
        .next
          (if key = 0 then
            answeredWith r .ok []
              { t with
                loc.timing :=
                  { epochAdjust := min 63 adj.toNat
                    voteHold := min 250 hold.toNat
                    callHang := max 2 (min 32 hang.toNat)
                    staleLimit := max 1 stale.toNat
                    purgeLimit := max 1 purge.toNat } }
          else answeredWith r .badKey [] t)) ∧
    (∀ w d h dw f1 f0 hold lost tmo retry : Byte, r.body = [2, k1, k0, w, d, h, dw, f1, f0, hold, lost, tmo, retry] →
      let p : ClassPolicy :=
        { weight := max 1 (min 16 w.toNat)
          decay := min 63 d.toNat
          hysteresis := h.toNat
          dwell := min 31 dw.toNat
          floor := min 1008 (f1.toNat * 256 + f0.toNat)
          shadowHold := max 1 (min 31 hold.toNat)
          lostLimit := max 1 lost.toNat
          roamTimeout := max 1 (min 15 tmo.toNat)
          retryLimit := min 3 retry.toNat }
      exec .writeClass s =
        .next
          (match key with
            | 0 => answeredWith r .ok [] { t with loc.policies := { s.loc.policies with ground := p } }
            | 1 => answeredWith r .ok [] { t with loc.policies := { s.loc.policies with vehicle := p } }
            | 2 => answeredWith r .ok [] { t with loc.policies := { s.loc.policies with aircraft := p } }
            | 3 => answeredWith r .ok [] { t with loc.policies := { s.loc.policies with command := p } }
            | _ => answeredWith r .badKey [] t)) ∧
    ∀ off bias r1 r0 t1 t0 rec cr th depth adm : Byte,
      r.body = [1, k1, k0, off, bias, r1, r0, t1, t0, rec, cr, th, depth, adm] →
      let cfg : SiteConfig :=
        { offset := max (-16) (min 15 off.toInt)
          bias := max (-64) (min 63 bias.toInt)
          roamInLimit := min 2048 (r1.toNat * 256 + r0.toNat)
          stallLimit := max 100 (min 60000 (t1.toNat * 256 + t0.toNat))
          recoveryCount := max 1 (min 7 rec.toNat)
          initialCredit := max 1 cr.toNat
          releaseThreshold := max 1 (min 32 th.toNat)
          voiceDepth := max 8 (min 96 depth.toNat) }
      let u := t.putSite key { s.site key with cfg := cfg }
      exec .writeSite s =
        .next
          (if 1 ≤ key ∧ key ≤ 40 then
            answeredWith r .ok []
              (if adm = 1 then u.enableSite key else if adm = 2 then u.barSite key else if adm = 3 then u.removeSite key else u)
          else answeredWith r .badKey [] t)

/-- A WRITE of a RANGE record is answered BAD_KEY past record 15, BAD_VALUE for an invalid radio ID, a last ID below the first or an
undefined class, and else stores the record for entries made later. -/
def Obligations.RangeRecordWritten : Prop :=
  ∀ (s : State) (r : Request) (rest : List Request) (k1 k0 f2 f1 f0 l2 l1 l0 c fl : Byte), Front s r rest → Unheld s →
    r.kind = .write → r.body = [3, k1, k0, f2, f1, f0, l2, l1, l0, c, fl] →
    let key := k1.toNat * 256 + k0.toNat
    let first := f2.toNat * 65536 + f1.toNat * 256 + f0.toNat
    let last := l2.toNat * 65536 + l1.toNat * 256 + l0.toNat
    let t := taken s rest
    let bad := first = 0 ∨ first = 0xFFFFFF ∨ last = 0 ∨ last = 0xFFFFFF ∨ last < first ∨ 3 < c.toNat
    (15 < key → exec .writeRange s = .next (answeredWith r .badKey [] t)) ∧
    (key ≤ 15 → bad → exec .writeRange s = .next (answeredWith r .badValue [] t)) ∧
    (key ≤ 15 → ¬bad →
      exec .writeRange s =
        .next
          (answeredWith r .ok []
            { t with
              loc.ranges :=
                s.loc.ranges.put ClassRange.default key
                  { first := BitVec.ofNat 24 first
                    last := BitVec.ofNat 24 last
                    cls := if c = 0 then .ground else if c = 1 then .vehicle else if c = 2 then .aircraft else .command
                    valid := fl.getLsbD 0 } }))

/-- A WRITE of a GROUP row is checked in the order of table 6-3, then stored; a row made valid or given a new talkgroup has its counts
computed afresh from the entries, and any other keeps its counts. -/
def Obligations.GroupRowWritten : Prop :=
  ∀ (s : State) (r : Request) (rest : List Request) (k1 k0 g1 g0 b0 b1 b2 b3 b4 fl : Byte), Front s r rest → Unheld s →
    r.kind = .write → r.body = [4, k1, k0, g1, g0, b0, b1, b2, b3, b4, fl] →
    let key := k1.toNat * 256 + k0.toNat
    let new : GroupRow :=
      { talkgroup := BitVec.ofNat 16 (g1.toNat * 256 + g0.toNat)
        pinned := b4 ++ b3 ++ b2 ++ b1 ++ b0
        flood := fl.getLsbD 0
        valid := fl.getLsbD 1 }
    let old := s.row key
    let t := taken s rest
    let badId := new.valid = true ∧ (new.talkgroup = 0 ∨ new.talkgroup = 0xFFFF)
    let duplicate := new.valid = true ∧ ∃ p ∈ s.reach.rows, p.1 ≠ key ∧ p.2.valid = true ∧ p.2.talkgroup = new.talkgroup
    let inUse :=
      old.valid = true ∧ ((∃ x, s.memberCount key x ≠ 0) ∨ s.emergencyCount key ≠ 0) ∧
        (new.valid = false ∨ new.talkgroup ≠ old.talkgroup)
    (255 < key → exec .writeGroup s = .next (answeredWith r .badKey [] t)) ∧
    (key ≤ 255 → badId ∨ duplicate → exec .writeGroup s = .next (answeredWith r .badValue [] t)) ∧
    (key ≤ 255 → ¬badId → ¬duplicate → inUse → TablesCanonical s →
      exec .writeGroup s = .next (answeredWith r .inUse [] t)) ∧
    (key ≤ 255 → ¬badId → ¬duplicate → ¬inUse → TablesCanonical s → EntriesSound s →
      ∃ members emergencies,
        exec .writeGroup s =
          .next
            (answeredWith r .ok []
              { t with
                reach.rows := s.reach.rows.put GroupRow.default key new
                loc.members := members
                loc.emergencies := emergencies }) ∧
        (new.valid = true ∧ (old.valid = false ∨ new.talkgroup ≠ old.talkgroup) →
          (∀ x, 1 ≤ x → x ≤ 40 → (members.atD key []).atD x 0 = s.loc.entries.countP (memberAt new.talkgroup x)) ∧
          emergencies.atD key 0 = (s.loc.entries.countP fun p => p.2.talkgroup == new.talkgroup && p.2.emergency) ∧
          ∀ k, k ≠ key → members.atD k [] = s.loc.members.atD k [] ∧ emergencies.atD k 0 = s.loc.emergencies.atD k 0) ∧
        (new.valid = false ∨ (old.valid = true ∧ new.talkgroup = old.talkgroup) →
          members = s.loc.members ∧ emergencies = s.loc.emergencies))

/-- BATCH starts with no response; each item has the effect and checks of its WRITE, in order; the last or the first to fail ends
the batch with one response, of its result and the number applied. The order of an item's checks is the model's (log 22), and so is
that BATCH_ITEM with no batch in progress changes nothing (log 2). -/
def Obligations.BatchItemsApplied : Prop :=
  (∀ (s : State) (r : Request) (rest : List Request) (items : List (List Byte)), Front s r rest → Unheld s → r.kind = .batch →
    r.items = some items →
    exec .batch s =
      .next { taken s rest with mgmt.batch := some { tag := r.tag, items := items.length, applied := 0, rest := items } }) ∧
  (∀ (items : List (List Byte)), 1 ≤ items.length → items.length ≤ 16 → (∀ i ∈ items, i.length < 256) → ∀ tag,
    ({ tag := tag, kind := .batch, body := byte items.length :: items.flatMap fun i => byte i.length :: i } : Request).items =
      some items) ∧
  (∀ (s t : State) (b : Batch) (item : List Byte) (rest : List (List Byte)) (res : Result), s.mgmt.batch = some b →
    b.rest = item :: rest → s.applyItem item = (t, res) →
    exec .batchItem s =
      .next
        (if res = .ok ∧ rest ≠ [] then { t with mgmt.batch := some { b with applied := b.applied + 1, rest := rest } }
          else
            ({ t with mgmt.batch := none } : State).offerCore
              (.response
                { tag := b.tag, result := res, body := [byte (if res = .ok then b.applied + 1 else b.applied)] }))) ∧
  (∀ (s : State) (code k1 k0 : Byte) (fields : List Byte),
    (code.toNat = 0 ∨ 5 < code.toNat → s.applyItem (code :: k1 :: k0 :: fields) = (s, .badTable)) ∧
    (∀ n, writeLength code.toNat = some n → fields.length ≠ n → s.applyItem (code :: k1 :: k0 :: fields) = (s, .badValue)) ∧
    (∀ n, writeLength code.toNat = some n → fields.length = n →
      s.applyItem (code :: k1 :: k0 :: fields) =
        if code = 1 then s.writeSiteRecord (k1.toNat * 256 + k0.toNat) fields
        else if code = 2 then s.writeClassRecord (k1.toNat * 256 + k0.toNat) fields
        else if code = 3 then s.writeRangeRecord (k1.toNat * 256 + k0.toNat) fields
        else if code = 4 then s.writeGroupRecord (k1.toNat * 256 + k0.toNat) fields
        else s.writeTimingRecord (k1.toNat * 256 + k0.toNat) fields)) ∧
  ∀ s : State, s.mgmt.batch = none → exec .batchItem s = .next s

/-- CONTROL actions, each answered OK: START sets RUN and the first epoch boundary, STOP sets LOAD and tells the vote unit and every
MOVING entry, LOCK sets LOCK, FLOOD_ON and FLOOD_OFF the flood override; one already in effect changes nothing. That a report of
STOP finding an earlier one not yet taken is one with it is the model's choice (log 38). -/
def Obligations.ControlActions : Prop :=
  ∀ (s : State) (r : Request) (rest : List Request), Front s r rest → s.mgmt.batch = none → r.kind = .control →
    let ok (t : State) : Host.Outcome State Fault Refusal := .next (answeredWith r .ok [] t)
    let t := taken s rest
    (r.body = [1] → s.mgmt.lock = false →
      (s.mgmt.run = .load →
        exec .start s =
          ok { t with mgmt.run := .run, loc.boundary := some (s.now + (250 + 10 * s.loc.timing.epochAdjust)) }) ∧
      (s.mgmt.run = .run → exec .start s = ok t)) ∧
    (r.body = [2] → s.mgmt.lock = false →
      (s.mgmt.run = .run →
        ∃ told, exec .stop s =
            ok
              { t with
                mgmt.run := .load
                loc.boundary := none
                loc.visits := []
                loc.stopReports := s.loc.stopReports ++ told
                vote.stopReport := true } ∧
          told.Sublist (s.loc.entries.map (·.1)) ∧
          (∀ k ∈ told, ∃ e, (k, e) ∈ s.loc.entries ∧ e.state = .moving) ∧
          ∀ k e, s.entry k = some e → e.state = .moving → k ∈ s.loc.stopReports ++ told) ∧
      (s.mgmt.run = .load → exec .stop s = ok t)) ∧
    (r.body = [3] → exec .lock s = ok { t with mgmt.lock := true }) ∧
    (r.body = [4] → exec .floodOn s = ok { t with reach.floodOverride := true }) ∧
    (r.body = [5] → exec .floodOff s = ok { t with reach.floodOverride := false })

/-- FORCE_ROAM is checked in order and starts a FORCED handover with a candidate for its target, answering NO_ROOM if the target's lane
cannot take the SERVE; EVICT frees an entry with its directives and DEREGISTER; CLEAR_EMERGENCY clears its flag. -/
def Obligations.RadioActions : Prop :=
  ∀ (s : State) (r : Request) (rest : List Request) (r2 r1 r0 x : Byte), Front s r rest → s.mgmt.batch = none →
    r.kind = .radioAction →
    let radio : RadioId := BitVec.ofNat 24 (r2.toNat * 65536 + r1.toNat * 256 + r0.toNat)
    let answered (a : Result) (u : State) : Host.Outcome State Fault Refusal := .next (answeredWith r a [] u)
    let t := taken s rest
    (r.body = [1, r2, r1, r0, x] →
      (radio = 0 ∨ radio = 0xFFFFFF → exec .forceRoam s = answered .badKey t) ∧
      (radio ≠ 0 → radio ≠ 0xFFFFFF →
        (s.lookup radio = none → exec .forceRoam s = answered .notFound t) ∧
        ∀ k e, Holds s radio k e →
          (s.mgmt.run = .load ∨ e.state = .unattached ∨ e.state = .moving → exec .forceRoam s = answered .wrongState t) ∧
          (s.mgmt.run = .run → e.state = .attached ∨ e.state = .shadow →
            let target := x.toNat
            (target = 0 ∨ 40 < target ∨ target = e.serving ∨ (s.site target).state ≠ .up →
              exec .forceRoam s = answered .badValue t) ∧
            (1 ≤ target → target ≤ 40 → target ≠ e.serving → (s.site target).state = .up →
              (¬LaneTakes s target → exec .forceRoam s = answered .noRoom (refusedAtLane target t)) ∧
              (LaneTakes s target → ∀ cs,
                (if (candOf target e.cands).isSome then cs = e.cands
                  else
                    let new : Candidate := { site := target, score := 0, scoreEpoch := s.loc.epoch, heardEpoch := s.loc.epoch }
                    if e.cands.length < 5 then cs = insertCand new e.cands
                    else ∃ v, Victim s e v ∧ cs = insertCand new (dropCand v.site e.cands)) →
                exec .forceRoam s = answered .ok (handoverStarted k e target .forced cs t)))))) ∧
    (r.body = [2, r2, r1, r0, x] →
      (radio = 0 ∨ radio = 0xFFFFFF → exec .evict s = answered .badKey t) ∧
      (radio ≠ 0 → radio ≠ 0xFFFFFF →
        (s.lookup radio = none → exec .evict s = answered .notFound t) ∧
        ∀ k e, Holds s radio k e →
          exec .evict s =
            answered .ok
              (withConditions s
                (((leaving e t).writeEntry k none).offerCore
                  (noticeOf s .deregister e.radio e.serving 0 e.talkgroup .forced))))) ∧
    (r.body = [3, r2, r1, r0, x] →
      (s.lookup radio = none → exec .clearEmergency s = answered .notFound t) ∧
      ∀ k e, Holds s radio k e →
        exec .clearEmergency s =
          answered .ok (withConditions s (if e.emergency then t.writeEntry k (some { e with emergency := false }) else t)))

/-! ### Alerts and counters -/

/-- ACK_ALERTS clears the stall flags named of sites not STALLED, the event flags named and the condition flags named whose
condition is false, takes new enables (clearing a class turned off, setting one turned on whose condition is true), clears the reset
causes if asked, offers one ALERT for each class whose flag rose over the whole, in ascending class code (the model's choice, log
17), and is answered OK. -/
def Obligations.AckAlertsApplied : Prop :=
  ∀ (s : State) (r : Request) (rest : List Request) (mask b0 b1 b2 b3 b4 fl en : Byte), Front s r rest → r.kind = .ackAlerts →
    r.body = [mask, b0, b1, b2, b3, b4, fl, en] → DisabledFlagsClear s →
    let stalls : SiteSet := b4 ++ b3 ++ b2 ++ b1 ++ b0
    ∃ sites flags conditions,
      let t : State :=
        { s with
          monitor.sites := sites
          mgmt :=
            { s.mgmt with
              requests := rest
              flags := flags
              conditions := conditions
              enables := if fl.getLsbD 1 then en else s.mgmt.enables
              causes := if fl.getLsbD 0 then { powerOn := false, pin := false, command := false } else s.mgmt.causes } }
      exec .ackAlerts s = .next (answeredWith r .ok [] (alertsOffered s.mgmt.flags t)) ∧
      (∀ x, t.site x =
        { s.site x with
          stall := if inSet stalls x ∧ (s.site x).state ≠ .stalled then false else (s.site x).stall }) ∧
      ∀ c,
        (hasClass conditions c = if c = .siteStall then t.anyStall else hasClass s.mgmt.conditions c) ∧
        hasClass flags c =
          if c = .siteStall then t.anyStall && hasClass t.mgmt.enables c
          else
            let condition := hasClass conditionClasses c && hasClass s.mgmt.conditions c
            let kept := hasClass s.mgmt.flags c && !(hasClass mask c && !condition)
            hasClass t.mgmt.enables c && (kept || (condition && !hasClass s.mgmt.enables c))

/-- A report sets the flag of an enabled class, kept until acknowledged; SITE_STALL instead follows the stall flags. The rise of a
flag, and nothing else, offers one ALERT to the core queue, with the flags as they stand after it. The oldest report of the class is
taken, and with none waiting nothing changes: the model's (logs 18, 2). -/
def Obligations.AlertReportTaken : Prop :=
  (∀ (s : State) (c : AlertClass) (v : Bool),
    (s.mgmt.alertReports.find? fun r => decide (r.cls = c)) = some { cls := c, value := v } →
    let sets := if c = .siteStall then s.anyStall && hasClass s.mgmt.enables c else v && hasClass s.mgmt.enables c
    let t : State :=
      { s with
        mgmt.alertReports := s.mgmt.alertReports.erase { cls := c, value := v }
        mgmt.flags :=
          if sets then s.mgmt.flags ||| alertBit c
          else if c = .siteStall then s.mgmt.flags &&& ~~~alertBit c
          else s.mgmt.flags
        mgmt.conditions :=
          if hasClass conditionClasses c then
            if v then s.mgmt.conditions ||| alertBit c else s.mgmt.conditions &&& ~~~alertBit c
          else s.mgmt.conditions }
    exec (.alertReport c) s =
      .next
        (if sets && !hasClass s.mgmt.flags c then
          t.offerCore (.alert { cls := c, flags := t.mgmt.flags, stalls := s.stallSet, epoch := s.loc.epoch })
        else t)) ∧
  ∀ (s : State) (c : AlertClass), (∀ r ∈ s.mgmt.alertReports, r.cls ≠ c) → exec (.alertReport c) s = .next s

/-- A counter raised by n goes up by n modulo 2^32, its wrap flag set when it passes the top, and no other counter changes;
CLEAR_COUNTERS makes every counter and wrap flag 0, answers OK and changes nothing else, under LOCK too; during a batch it is refused
with BATCH_ACTIVE. -/
def Obligations.CountersRaisedAndCleared : Prop :=
  (∀ (s : State) (n : Nat) (c : CounterId),
    let before := s.mgmt.counters.atD c.key Counter.zero
    let after := (s.countBy n c).mgmt.counters.atD c.key Counter.zero
    after.value.toNat = (before.value.toNat + n) % 2 ^ 32 ∧
      (after.wrapped = true ↔ before.wrapped = true ∨ 2 ^ 32 ≤ before.value.toNat + n) ∧
      ∀ k, k ≠ c.key → (s.countBy n c).mgmt.counters.atD k Counter.zero = s.mgmt.counters.atD k Counter.zero) ∧
  (∀ c d : CounterId,
    (∀ x f, c = .site x f → validSite x = true) → (∀ x f, d = .site x f → validSite x = true) → c.key = d.key → c = d) ∧
  ∀ (s : State) (r : Request) (rest : List Request), Front s r rest → r.kind = .clearCounters → r.body = [] →
    (s.mgmt.batch = none →
      exec .clearCounters s = .next (answeredWith r .ok [] { taken s rest with mgmt.counters := [] })) ∧
    (s.mgmt.batch ≠ none → exec .clearCounters s = .next (answeredWith r .batchActive [] (taken s rest))) ∧
    ∀ k, Tab.atD ([] : Tab Counter) k Counter.zero = { value := 0, wrapped := false }

/-! ### What every step keeps -/

/-- The laws of Safety.lean hold at reset. -/
def Obligations.ResetMeetsLaws : Prop :=
  TablesCanonical State.reset ∧ ConfigurationInRange State.reset ∧ EntriesSound State.reset ∧ EntryTableSound State.reset ∧
    InboxesSound State.reset ∧ LoadLaw State.reset ∧ CountLaw State.reset ∧ EpochLaw State.reset ∧ LockLaw State.reset ∧
    CallsSound State.reset ∧ PoolLaw State.reset ∧ QueueCapacity State.reset ∧ FiguresInRange State.reset ∧
    DisabledFlagsClear State.reset

/-- Every step keeps every table in its canonical form. -/
def Obligations.StepKeepsTables : Prop := ∀ s t : State, TablesCanonical s → step s = .next t → TablesCanonical t

/-- Every step keeps every configured record in its range and the group rows' talkgroups distinct. -/
def Obligations.StepKeepsConfiguration : Prop :=
  ∀ s t : State, TablesCanonical s → ConfigurationInRange s → step s = .next t → ConfigurationInRange t

/-- Under LOCK, with no batch in progress, no step but a power-on reset changes the configuration or clears LOCK. -/
def Obligations.LockKeepsConfiguration : Prop :=
  ∀ s t : State, TablesCanonical s → s.mgmt.lock = true → s.mgmt.batch = none → (∀ p, s.pending.head? ≠ some (.powerOnReset p)) →
    step s = .next t → ConfigurationSame s t ∧ t.mgmt.batch = none

/-- Every step keeps every radio entry, the slots and what waits at the location engine as tables 1-1 and 1-2 and R3 describe them. -/
def Obligations.StepKeepsEntries : Prop :=
  ∀ s t : State, TablesCanonical s → ConfigurationInRange s → EntriesSound s → EntryTableSound s → InboxesSound s →
    step s = .next t → EntriesSound t ∧ EntryTableSound t ∧ InboxesSound t

/-- Every step keeps each site's load, each row's member counts and each row's emergency count equal to what the entries say. -/
def Obligations.StepKeepsCounts : Prop :=
  ∀ s t : State, TablesCanonical s → ConfigurationInRange s → EntriesSound s → EntryTableSound s → InboxesSound s → LoadLaw s →
    CountLaw s → step s = .next t → LoadLaw t ∧ CountLaw t

/-- Every step keeps the occupied pool slots equal to the frames held, and every queue within its capacity. -/
def Obligations.StepKeepsQueues : Prop :=
  ∀ s t : State, TablesCanonical s → ConfigurationInRange s → PoolLaw s → QueueCapacity s → step s = .next t →
    PoolLaw t ∧ QueueCapacity t

/-- Every step keeps the laws of run state, LOCK, calls, small figures and disabled alert flags. -/
def Obligations.StepKeepsControl : Prop :=
  ∀ s t : State, TablesCanonical s → ConfigurationInRange s → EpochLaw s → LockLaw s → CallsSound s → FiguresInRange s →
    DisabledFlagsClear s → step s = .next t →
    EpochLaw t ∧ LockLaw t ∧ CallsSound t ∧ FiguresInRange t ∧ DisabledFlagsClear t

end Sys2ProofObligations
end

