-- ==== Sys2Proof/Laws/Frames.lean ====
section
/-! SUPPORT. The bytes of flags, site sets and frame bodies: what the layouts of R140 and R153 spell, bit by bit, and which bodies are
read. -/

namespace Sys2Proof.Machine

/-! ### The body of a CALL read -/

/-- The body of a CALL read has the Length of 17 bytes that table 9-9 gives (R153), whatever the record. -/
@[simp] theorem CallRecord.encode_length (r : CallRecord) (now : Nat) : (r.encode now).length = 17 := by
  unfold CallRecord.encode; cases r.best <;> simp [bytes2, bytes3]

/-! ### Flags and site sets -/

theorem flagByte_one (a : Bool) : flagByte [a] = if a then 1 else 0 := by cases a <;> decide
/-- A flags byte is the sum of its bits. -/
theorem flagByte_eq_bitsByte (bits : List Bool) (h : bits.length ≤ 8) : flagByte bits = bitsByte bits := by
  match bits, h with
  | [], _ => decide
  | [a], _ => revert a; decide
  | [a,b], _ => revert a b; decide
  | [a,b,c], _ => revert a b c; decide
  | [a,b,c,d], _ => revert a b c d; decide
  | [a,b,c,d,e], _ => revert a b c d e; decide
  | [a,b,c,d,e,f], _ => revert a b c d e f; decide
  | [a,b,c,d,e,f,g], _ => revert a b c d e f g; decide
  | [a,b,c,d,e,f,g,i], _ => revert a b c d e f g i; decide
/-- The bytes of a site set are its bits by eights. -/
theorem siteSetBytes_eq_extract (s : SiteSet) : siteSetBytes s = (List.range 5).map fun i => s.extractLsb' (8 * i) 8 := by
  simp only [siteSetBytes, List.range, List.range.loop, List.map, byte, BitVec.extractLsb', Nat.shiftRight_eq_div_pow]; simp
theorem bitsByte_getLsbD (x : Byte) : x = bitsByte ((List.range 8).map fun j => x.getLsbD j) := by revert x; decide
theorem siteSetBytes_eq_bits (s : SiteSet) :
    siteSetBytes s = (List.range 5).map fun i => bitsByte ((List.range 8).map fun j => s.getLsbD (8 * i + j)) := by
  rw [siteSetBytes_eq_extract]; apply List.map_congr_left; intro i _
  rw [bitsByte_getLsbD (BitVec.extractLsb' (8*i) 8 s)]; congr 1
  apply List.map_congr_left; intro j hj
  simp at hj
  simp [hj]
/-- Bit n - 1 of the set of the sites that meet a test says whether site n does. -/
theorem siteSet_getLsbD (p : Nat → Bool) (i : Nat) (h : i < 40) : (siteSet p).getLsbD i = p (i+1) := by
  have : ∀ n, n ≤ 40 → ∀ i < 40,
      ((List.range n).foldl (fun s i => if p (i + 1) then s ||| (1#40 <<< i) else s) (0 : SiteSet)).getLsbD i =
        (decide (i < n) && p (i + 1)) := by
    intro n
    induction n with
    | zero => intro _ i _; simp
    | succ n ih =>
      intro hn i hi
      rw [List.range_succ, List.foldl_append]
      simp only [List.foldl_cons, List.foldl_nil]
      have h1 := ih (by omega) i hi
      by_cases hin : i = n
      · subst hin
        split <;> rename_i hp <;> simp_all
      · have h3 : decide (i < n + 1) = decide (i < n) := by simp; omega
        split
        · rw [BitVec.getLsbD_or, h1, h3]
          have : (1#40 <<< n).getLsbD i = false := by
            simp [BitVec.getLsbD_shiftLeft, BitVec.getLsbD_one]; omega
          rw [this]; simp
        · rw [h1, h3]
  have := this 40 (by omega) i h
  simpa [siteSet, Config.siteCount, h] using this
theorem siteSetBytes_siteSet (p : Nat → Bool) :
    siteSetBytes (siteSet p) = (List.range 5).map fun i => bitsByte ((List.range 8).map fun j => p (8 * i + j + 1)) := by
  rw [siteSetBytes_eq_bits]; apply List.map_congr_left; intro i hi; congr 1; apply List.map_congr_left; intro j hj
  simp at hi hj
  exact siteSet_getLsbD p _ (by omega)

/-- The wrap flags of a counter set, byte by byte. -/
theorem wrapBytes_eq (f : Nat → Bool) (n) (h : n = 17 ∨ n = 7 ∨ n = 10) :
    wrapBytes ((List.range n).map f) =
      (List.range ((n + 7) / 8)).map fun j => bitsByte ((List.range 8).map fun i => decide (8 * j + i < n) && f (8 * j + i)) := by
  rcases h with h | h | h <;> subst h <;> simp [List.range, List.range.loop, wrapBytes, flagByte_eq_bitsByte] <;> simp [bitsByte]

/-! ### Which bodies are read -/

theorem CallType.ofCode_isSome (n : Nat) : (CallType.ofCode n).isSome = true ↔ n ≤ 3 := by
  unfold CallType.ofCode; split <;> simp_all; omega
theorem RegReason.ofCode_isSome (n : Nat) : (RegReason.ofCode n).isSome = true ↔ n ≤ 3 := by
  unfold RegReason.ofCode; split <;> simp_all; omega
theorem ackAccept_isSome (n : Nat) : (ackAccept n).isSome = true ↔ n ≤ 1 := by
  unfold ackAccept; split <;> simp_all; omega
theorem RequestKind.ofCode_isSome (n : Nat) : (RequestKind.ofCode n).isSome = true ↔ 1 ≤ n ∧ n ≤ 10 := by
  unfold RequestKind.ofCode; split <;> simp_all; omega

theorem kindParser_eq_none_iff (p : Port) (k : Nat) : kindParser p k = none ↔ k ∉ kindsOf p := by
  unfold kindParser
  split <;> simp [kindsOf]
  cases p <;> simp_all

theorem parseReception_iff (body : List Byte) :
    ((parseReception body).isSome = true ↔
        13 ≤ body.length ∧ body.length = 13 + (body.getD 12 0).toNat ∧ (body.getD 12 0).toNat ≤ 64 ∧
          (body.getD 4 0).toNat ≤ 3) ∧
      ∀ f, parseReception body = some f → f.kindCode = 0x11 ∧ f.port = .site := by
  constructor
  · rcases body with _ | ⟨b0, _ | ⟨b1, _ | ⟨b2, _ | ⟨b3, _ | ⟨b4, _ | ⟨b5, _ |
      ⟨b6, _ | ⟨b7, _ | ⟨b8, _ | ⟨b9, _ | ⟨b10, _ | ⟨b11, _ | ⟨b12, tl⟩⟩⟩⟩⟩⟩⟩⟩⟩⟩⟩⟩⟩
    all_goals try (simp [parseReception]; done)
    have hc := CallType.ofCode_isSome b4.toNat
    simp only [parseReception]
    cases h : CallType.ofCode b4.toNat <;> simp [h] at hc ⊢ <;> omega
  · intro f hf
    unfold parseReception at hf
    split at hf
    · split at hf
      · split at hf
        · cases hf; exact ⟨rfl, rfl⟩
        · cases hf
      · cases hf
    · cases hf

theorem parseRegistration_iff (body : List Byte) :
    ((parseRegistration body).isSome = true ↔
        body.length = 8 ∧ (body.getD 7 0).toNat ≤ 3) ∧
      ∀ f, parseRegistration body = some f → f.kindCode = 0x12 ∧ f.port = .site := by
  constructor
  · rcases body with _ | ⟨b0, _ | ⟨b1, _ | ⟨b2, _ | ⟨b3, _ | ⟨b4, _ | ⟨b5, _ |
      ⟨b6, _ | ⟨b7, _ | ⟨b8, tl⟩⟩⟩⟩⟩⟩⟩⟩⟩
    all_goals try (simp [parseRegistration]; done)
    have hc := RegReason.ofCode_isSome b7.toNat
    simp [parseRegistration, hc]
  · intro f hf
    unfold parseRegistration at hf
    split at hf
    · obtain ⟨_, _, rfl⟩ := Option.map_eq_some_iff.mp hf; exact ⟨rfl, rfl⟩
    · cases hf

theorem parseHeartbeat_iff (body : List Byte) :
    ((parseHeartbeat body).isSome = true ↔
        body.length = 3) ∧
      ∀ f, parseHeartbeat body = some f → f.kindCode = 0x13 ∧ f.port = .site := by
  constructor
  · rcases body with _ | ⟨b0, _ | ⟨b1, _ | ⟨b2, _ | ⟨b3, tl⟩⟩⟩⟩
    all_goals simp [parseHeartbeat]
  · intro f hf
    unfold parseHeartbeat at hf
    split at hf
    · cases hf; exact ⟨rfl, rfl⟩
    · cases hf

theorem parseAck_iff (body : List Byte) :
    ((parseAck body).isSome = true ↔
        body.length = 6 ∧ (body.getD 5 0).toNat ≤ 1) ∧
      ∀ f, parseAck body = some f → f.kindCode = 0x14 ∧ f.port = .site := by
  constructor
  · rcases body with _ | ⟨b0, _ | ⟨b1, _ | ⟨b2, _ | ⟨b3, _ | ⟨b4, _ | ⟨b5, _ | ⟨b6, tl⟩⟩⟩⟩⟩⟩⟩
    all_goals try (simp [parseAck]; done)
    have hc := ackAccept_isSome b5.toNat
    simp [parseAck, hc]
  · intro f hf
    unfold parseAck at hf
    split at hf
    · obtain ⟨_, _, rfl⟩ := Option.map_eq_some_iff.mp hf; exact ⟨rfl, rfl⟩
    · cases hf

theorem parseDownlink_iff (body : List Byte) :
    ((parseDownlink body).isSome = true ↔
        9 ≤ body.length ∧ body.length = 9 + (body.getD 8 0).toNat ∧ (body.getD 8 0).toNat ≤ 64 ∧
          (body.getD 1 0).toNat ≤ 3) ∧
      ∀ f, parseDownlink body = some f → f.kindCode = 0x22 ∧ f.port = .core := by
  constructor
  · rcases body with _ | ⟨b0, _ | ⟨b1, _ | ⟨b2, _ | ⟨b3, _ | ⟨b4, _ | ⟨b5, _ |
      ⟨b6, _ | ⟨b7, _ | ⟨b8, tl⟩⟩⟩⟩⟩⟩⟩⟩⟩
    all_goals try (simp [parseDownlink]; done)
    have hc := CallType.ofCode_isSome b1.toNat
    simp only [parseDownlink]
    cases h : CallType.ofCode b1.toNat <;> simp [h] at hc ⊢ <;> omega
  · intro f hf
    unfold parseDownlink at hf
    split at hf
    · split at hf
      · split at hf
        · cases hf; exact ⟨rfl, rfl⟩
        · cases hf
      · cases hf
    · cases hf

theorem parseRelay_iff (body : List Byte) :
    ((parseRelay body).isSome = true ↔
        2 ≤ body.length ∧ body.length = 2 + (body.getD 1 0).toNat ∧ (body.getD 1 0).toNat ≤ 64) ∧
      ∀ f, parseRelay body = some f → f.kindCode = 0x23 ∧ f.port = .core := by
  constructor
  · rcases body with _ | ⟨b0, _ | ⟨b1, tl⟩⟩
    all_goals try (simp [parseRelay]; done)
    simp [parseRelay]; omega
  · intro f hf
    unfold parseRelay at hf
    split at hf
    · split at hf
      · cases hf; exact ⟨rfl, rfl⟩
      · cases hf
    · cases hf

theorem parseRequest_iff (body : List Byte) :
    ((parseRequest body).isSome = true ↔
        4 ≤ body.length ∧ body.length = 4 + (body.getD 3 0).toNat ∧ (body.getD 3 0).toNat ≤ 240 ∧
          1 ≤ (body.getD 2 0).toNat ∧ (body.getD 2 0).toNat ≤ 10) ∧
      ∀ f, parseRequest body = some f → f.kindCode = 0x41 ∧ f.port = .core := by
  constructor
  · rcases body with _ | ⟨b0, _ | ⟨b1, _ | ⟨b2, _ | ⟨b3, tl⟩⟩⟩⟩
    all_goals try (simp [parseRequest]; done)
    have hc := RequestKind.ofCode_isSome b2.toNat
    simp only [parseRequest]
    cases h : RequestKind.ofCode b2.toNat <;> simp [h] at hc ⊢ <;> omega
  · intro f hf
    unfold parseRequest at hf
    split at hf
    · split at hf
      · split at hf
        · cases hf; exact ⟨rfl, rfl⟩
        · cases hf
      · cases hf
    · cases hf

/-- A body is read exactly when it passes the format check of its kind. -/
theorem kindParser_reads_iff (p : Port) (k : Byte) (parse) (h : kindParser p k.toNat = some parse) (body : List Byte) :
    ((parse body).isSome = true ↔ FormatRight k.toNat body) ∧ ∀ f, parse body = some f → f.kindCode = k ∧ f.port = p := by
  have hb : ∀ j : Byte, k.toNat = j.toNat → k = j := fun j h => BitVec.eq_of_toNat_eq h
  unfold kindParser at h
  split at h <;> cases h
  · rename_i hk; have := hb 0x11 hk; subst this; simpa [FormatRight] using parseReception_iff body
  · rename_i hk; have := hb 0x12 hk; subst this; simpa [FormatRight] using parseRegistration_iff body
  · rename_i hk; have := hb 0x13 hk; subst this; simpa [FormatRight] using parseHeartbeat_iff body
  · rename_i hk; have := hb 0x14 hk; subst this; simpa [FormatRight] using parseAck_iff body
  · rename_i hk; have := hb 0x22 hk; subst this; simpa [FormatRight] using parseDownlink_iff body
  · rename_i hk; have := hb 0x23 hk; subst this; simpa [FormatRight] using parseRelay_iff body
  · rename_i hk; have := hb 0x41 hk; subst this; simpa [FormatRight] using parseRequest_iff body

end Sys2Proof.Machine
end

