-- ==== Sys2Proof/Laws/State.lean ====
section
/-! SUPPORT. What each shared operation leaves alone: one lemma for each field it does not touch, so that no later proof unfolds the
operation to see that a field stands. -/

namespace Sys2Proof.Machine

/-! #### countBy -/

@[simp] theorem State.countBy_pending (n : Nat) (c : CounterId) (s : State) : (s.countBy n c).pending = s.pending := rfl
@[simp] theorem State.countBy_now (n : Nat) (c : CounterId) (s : State) : (s.countBy n c).now = s.now := rfl
@[simp] theorem State.countBy_straps (n : Nat) (c : CounterId) (s : State) : (s.countBy n c).straps = s.straps := rfl
@[simp] theorem State.countBy_classifier (n : Nat) (c : CounterId) (s : State) : (s.countBy n c).classifier = s.classifier := rfl
@[simp] theorem State.countBy_monitor (n : Nat) (c : CounterId) (s : State) : (s.countBy n c).monitor = s.monitor := rfl
@[simp] theorem State.countBy_vote (n : Nat) (c : CounterId) (s : State) : (s.countBy n c).vote = s.vote := rfl
@[simp] theorem State.countBy_loc (n : Nat) (c : CounterId) (s : State) : (s.countBy n c).loc = s.loc := rfl
@[simp] theorem State.countBy_reach (n : Nat) (c : CounterId) (s : State) : (s.countBy n c).reach = s.reach := rfl
@[simp] theorem State.countBy_egress (n : Nat) (c : CounterId) (s : State) : (s.countBy n c).egress = s.egress := rfl
@[simp] theorem State.countBy_mgmt_run (n : Nat) (c : CounterId) (s : State) : (s.countBy n c).mgmt.run = s.mgmt.run := rfl
@[simp] theorem State.countBy_mgmt_lock (n : Nat) (c : CounterId) (s : State) : (s.countBy n c).mgmt.lock = s.mgmt.lock := rfl
@[simp] theorem State.countBy_mgmt_causes (n : Nat) (c : CounterId) (s : State) : (s.countBy n c).mgmt.causes = s.mgmt.causes := rfl
@[simp] theorem State.countBy_mgmt_unit (n : Nat) (c : CounterId) (s : State) : (s.countBy n c).mgmt.unit = s.mgmt.unit := rfl
@[simp] theorem State.countBy_mgmt_inbox (n : Nat) (c : CounterId) (s : State) : (s.countBy n c).mgmt.inbox = s.mgmt.inbox := rfl
@[simp] theorem State.countBy_mgmt_requests (n : Nat) (c : CounterId) (s : State) : (s.countBy n c).mgmt.requests = s.mgmt.requests := rfl
@[simp] theorem State.countBy_mgmt_batch (n : Nat) (c : CounterId) (s : State) : (s.countBy n c).mgmt.batch = s.mgmt.batch := rfl
@[simp] theorem State.countBy_mgmt_flags (n : Nat) (c : CounterId) (s : State) : (s.countBy n c).mgmt.flags = s.mgmt.flags := rfl
@[simp] theorem State.countBy_mgmt_enables (n : Nat) (c : CounterId) (s : State) : (s.countBy n c).mgmt.enables = s.mgmt.enables := rfl
@[simp] theorem State.countBy_mgmt_conditions (n : Nat) (c : CounterId) (s : State) : (s.countBy n c).mgmt.conditions = s.mgmt.conditions := rfl
@[simp] theorem State.countBy_mgmt_alertReports (n : Nat) (c : CounterId) (s : State) : (s.countBy n c).mgmt.alertReports = s.mgmt.alertReports := rfl

/-! #### count -/

@[simp] theorem State.count_pending (c : CounterId) (s : State) : (s.count c).pending = s.pending := rfl
@[simp] theorem State.count_now (c : CounterId) (s : State) : (s.count c).now = s.now := rfl
@[simp] theorem State.count_straps (c : CounterId) (s : State) : (s.count c).straps = s.straps := rfl
@[simp] theorem State.count_classifier (c : CounterId) (s : State) : (s.count c).classifier = s.classifier := rfl
@[simp] theorem State.count_monitor (c : CounterId) (s : State) : (s.count c).monitor = s.monitor := rfl
@[simp] theorem State.count_vote (c : CounterId) (s : State) : (s.count c).vote = s.vote := rfl
@[simp] theorem State.count_loc (c : CounterId) (s : State) : (s.count c).loc = s.loc := rfl
@[simp] theorem State.count_reach (c : CounterId) (s : State) : (s.count c).reach = s.reach := rfl
@[simp] theorem State.count_egress (c : CounterId) (s : State) : (s.count c).egress = s.egress := rfl
@[simp] theorem State.count_mgmt_run (c : CounterId) (s : State) : (s.count c).mgmt.run = s.mgmt.run := rfl
@[simp] theorem State.count_mgmt_lock (c : CounterId) (s : State) : (s.count c).mgmt.lock = s.mgmt.lock := rfl
@[simp] theorem State.count_mgmt_causes (c : CounterId) (s : State) : (s.count c).mgmt.causes = s.mgmt.causes := rfl
@[simp] theorem State.count_mgmt_unit (c : CounterId) (s : State) : (s.count c).mgmt.unit = s.mgmt.unit := rfl
@[simp] theorem State.count_mgmt_inbox (c : CounterId) (s : State) : (s.count c).mgmt.inbox = s.mgmt.inbox := rfl
@[simp] theorem State.count_mgmt_requests (c : CounterId) (s : State) : (s.count c).mgmt.requests = s.mgmt.requests := rfl
@[simp] theorem State.count_mgmt_batch (c : CounterId) (s : State) : (s.count c).mgmt.batch = s.mgmt.batch := rfl
@[simp] theorem State.count_mgmt_flags (c : CounterId) (s : State) : (s.count c).mgmt.flags = s.mgmt.flags := rfl
@[simp] theorem State.count_mgmt_enables (c : CounterId) (s : State) : (s.count c).mgmt.enables = s.mgmt.enables := rfl
@[simp] theorem State.count_mgmt_conditions (c : CounterId) (s : State) : (s.count c).mgmt.conditions = s.mgmt.conditions := rfl
@[simp] theorem State.count_mgmt_alertReports (c : CounterId) (s : State) : (s.count c).mgmt.alertReports = s.mgmt.alertReports := rfl

/-! #### reportAlert -/

@[simp] theorem State.reportAlert_pending (c : AlertClass) (v : Bool) (s : State) : (s.reportAlert c v).pending = s.pending := rfl
@[simp] theorem State.reportAlert_now (c : AlertClass) (v : Bool) (s : State) : (s.reportAlert c v).now = s.now := rfl
@[simp] theorem State.reportAlert_straps (c : AlertClass) (v : Bool) (s : State) : (s.reportAlert c v).straps = s.straps := rfl
@[simp] theorem State.reportAlert_classifier (c : AlertClass) (v : Bool) (s : State) : (s.reportAlert c v).classifier = s.classifier := rfl
@[simp] theorem State.reportAlert_monitor (c : AlertClass) (v : Bool) (s : State) : (s.reportAlert c v).monitor = s.monitor := rfl
@[simp] theorem State.reportAlert_vote (c : AlertClass) (v : Bool) (s : State) : (s.reportAlert c v).vote = s.vote := rfl
@[simp] theorem State.reportAlert_loc (c : AlertClass) (v : Bool) (s : State) : (s.reportAlert c v).loc = s.loc := rfl
@[simp] theorem State.reportAlert_reach (c : AlertClass) (v : Bool) (s : State) : (s.reportAlert c v).reach = s.reach := rfl
@[simp] theorem State.reportAlert_egress (c : AlertClass) (v : Bool) (s : State) : (s.reportAlert c v).egress = s.egress := rfl
@[simp] theorem State.reportAlert_mgmt_run (c : AlertClass) (v : Bool) (s : State) : (s.reportAlert c v).mgmt.run = s.mgmt.run := rfl
@[simp] theorem State.reportAlert_mgmt_lock (c : AlertClass) (v : Bool) (s : State) : (s.reportAlert c v).mgmt.lock = s.mgmt.lock := rfl
@[simp] theorem State.reportAlert_mgmt_causes (c : AlertClass) (v : Bool) (s : State) : (s.reportAlert c v).mgmt.causes = s.mgmt.causes := rfl
@[simp] theorem State.reportAlert_mgmt_unit (c : AlertClass) (v : Bool) (s : State) : (s.reportAlert c v).mgmt.unit = s.mgmt.unit := rfl
@[simp] theorem State.reportAlert_mgmt_inbox (c : AlertClass) (v : Bool) (s : State) : (s.reportAlert c v).mgmt.inbox = s.mgmt.inbox := rfl
@[simp] theorem State.reportAlert_mgmt_requests (c : AlertClass) (v : Bool) (s : State) : (s.reportAlert c v).mgmt.requests = s.mgmt.requests := rfl
@[simp] theorem State.reportAlert_mgmt_batch (c : AlertClass) (v : Bool) (s : State) : (s.reportAlert c v).mgmt.batch = s.mgmt.batch := rfl
@[simp] theorem State.reportAlert_mgmt_flags (c : AlertClass) (v : Bool) (s : State) : (s.reportAlert c v).mgmt.flags = s.mgmt.flags := rfl
@[simp] theorem State.reportAlert_mgmt_enables (c : AlertClass) (v : Bool) (s : State) : (s.reportAlert c v).mgmt.enables = s.mgmt.enables := rfl
@[simp] theorem State.reportAlert_mgmt_conditions (c : AlertClass) (v : Bool) (s : State) : (s.reportAlert c v).mgmt.conditions = s.mgmt.conditions := rfl
@[simp] theorem State.reportAlert_mgmt_counters (c : AlertClass) (v : Bool) (s : State) : (s.reportAlert c v).mgmt.counters = s.mgmt.counters := rfl

/-! #### reportChange -/

@[simp] theorem State.reportChange_pending (c : AlertClass) (a b : Bool) (s : State) : (s.reportChange c a b).pending = s.pending := by unfold State.reportChange; split <;> simp
@[simp] theorem State.reportChange_now (c : AlertClass) (a b : Bool) (s : State) : (s.reportChange c a b).now = s.now := by unfold State.reportChange; split <;> simp
@[simp] theorem State.reportChange_straps (c : AlertClass) (a b : Bool) (s : State) : (s.reportChange c a b).straps = s.straps := by unfold State.reportChange; split <;> simp
@[simp] theorem State.reportChange_classifier (c : AlertClass) (a b : Bool) (s : State) : (s.reportChange c a b).classifier = s.classifier := by unfold State.reportChange; split <;> simp
@[simp] theorem State.reportChange_monitor (c : AlertClass) (a b : Bool) (s : State) : (s.reportChange c a b).monitor = s.monitor := by unfold State.reportChange; split <;> simp
@[simp] theorem State.reportChange_vote (c : AlertClass) (a b : Bool) (s : State) : (s.reportChange c a b).vote = s.vote := by unfold State.reportChange; split <;> simp
@[simp] theorem State.reportChange_loc (c : AlertClass) (a b : Bool) (s : State) : (s.reportChange c a b).loc = s.loc := by unfold State.reportChange; split <;> simp
@[simp] theorem State.reportChange_reach (c : AlertClass) (a b : Bool) (s : State) : (s.reportChange c a b).reach = s.reach := by unfold State.reportChange; split <;> simp
@[simp] theorem State.reportChange_egress (c : AlertClass) (a b : Bool) (s : State) : (s.reportChange c a b).egress = s.egress := by unfold State.reportChange; split <;> simp
@[simp] theorem State.reportChange_mgmt_run (c : AlertClass) (a b : Bool) (s : State) : (s.reportChange c a b).mgmt.run = s.mgmt.run := by unfold State.reportChange; split <;> simp
@[simp] theorem State.reportChange_mgmt_lock (c : AlertClass) (a b : Bool) (s : State) : (s.reportChange c a b).mgmt.lock = s.mgmt.lock := by unfold State.reportChange; split <;> simp
@[simp] theorem State.reportChange_mgmt_causes (c : AlertClass) (a b : Bool) (s : State) : (s.reportChange c a b).mgmt.causes = s.mgmt.causes := by unfold State.reportChange; split <;> simp
@[simp] theorem State.reportChange_mgmt_unit (c : AlertClass) (a b : Bool) (s : State) : (s.reportChange c a b).mgmt.unit = s.mgmt.unit := by unfold State.reportChange; split <;> simp
@[simp] theorem State.reportChange_mgmt_inbox (c : AlertClass) (a b : Bool) (s : State) : (s.reportChange c a b).mgmt.inbox = s.mgmt.inbox := by unfold State.reportChange; split <;> simp
@[simp] theorem State.reportChange_mgmt_requests (c : AlertClass) (a b : Bool) (s : State) : (s.reportChange c a b).mgmt.requests = s.mgmt.requests := by unfold State.reportChange; split <;> simp
@[simp] theorem State.reportChange_mgmt_batch (c : AlertClass) (a b : Bool) (s : State) : (s.reportChange c a b).mgmt.batch = s.mgmt.batch := by unfold State.reportChange; split <;> simp
@[simp] theorem State.reportChange_mgmt_flags (c : AlertClass) (a b : Bool) (s : State) : (s.reportChange c a b).mgmt.flags = s.mgmt.flags := by unfold State.reportChange; split <;> simp
@[simp] theorem State.reportChange_mgmt_enables (c : AlertClass) (a b : Bool) (s : State) : (s.reportChange c a b).mgmt.enables = s.mgmt.enables := by unfold State.reportChange; split <;> simp
@[simp] theorem State.reportChange_mgmt_conditions (c : AlertClass) (a b : Bool) (s : State) : (s.reportChange c a b).mgmt.conditions = s.mgmt.conditions := by unfold State.reportChange; split <;> simp
@[simp] theorem State.reportChange_mgmt_counters (c : AlertClass) (a b : Bool) (s : State) : (s.reportChange c a b).mgmt.counters = s.mgmt.counters := by unfold State.reportChange; split <;> simp

/-! #### reportConditions -/

@[simp] theorem State.reportConditions_pending (s0 : State) (s : State) : (State.reportConditions s0 s).pending = s.pending := by simp [State.reportConditions]
@[simp] theorem State.reportConditions_now (s0 : State) (s : State) : (State.reportConditions s0 s).now = s.now := by simp [State.reportConditions]
@[simp] theorem State.reportConditions_straps (s0 : State) (s : State) : (State.reportConditions s0 s).straps = s.straps := by simp [State.reportConditions]
@[simp] theorem State.reportConditions_classifier (s0 : State) (s : State) : (State.reportConditions s0 s).classifier = s.classifier := by simp [State.reportConditions]
@[simp] theorem State.reportConditions_monitor (s0 : State) (s : State) : (State.reportConditions s0 s).monitor = s.monitor := by simp [State.reportConditions]
@[simp] theorem State.reportConditions_vote (s0 : State) (s : State) : (State.reportConditions s0 s).vote = s.vote := by simp [State.reportConditions]
@[simp] theorem State.reportConditions_loc (s0 : State) (s : State) : (State.reportConditions s0 s).loc = s.loc := by simp [State.reportConditions]
@[simp] theorem State.reportConditions_reach (s0 : State) (s : State) : (State.reportConditions s0 s).reach = s.reach := by simp [State.reportConditions]
@[simp] theorem State.reportConditions_egress (s0 : State) (s : State) : (State.reportConditions s0 s).egress = s.egress := by simp [State.reportConditions]
@[simp] theorem State.reportConditions_mgmt_run (s0 : State) (s : State) : (State.reportConditions s0 s).mgmt.run = s.mgmt.run := by simp [State.reportConditions]
@[simp] theorem State.reportConditions_mgmt_lock (s0 : State) (s : State) : (State.reportConditions s0 s).mgmt.lock = s.mgmt.lock := by simp [State.reportConditions]
@[simp] theorem State.reportConditions_mgmt_causes (s0 : State) (s : State) : (State.reportConditions s0 s).mgmt.causes = s.mgmt.causes := by simp [State.reportConditions]
@[simp] theorem State.reportConditions_mgmt_unit (s0 : State) (s : State) : (State.reportConditions s0 s).mgmt.unit = s.mgmt.unit := by simp [State.reportConditions]
@[simp] theorem State.reportConditions_mgmt_inbox (s0 : State) (s : State) : (State.reportConditions s0 s).mgmt.inbox = s.mgmt.inbox := by simp [State.reportConditions]
@[simp] theorem State.reportConditions_mgmt_requests (s0 : State) (s : State) : (State.reportConditions s0 s).mgmt.requests = s.mgmt.requests := by simp [State.reportConditions]
@[simp] theorem State.reportConditions_mgmt_batch (s0 : State) (s : State) : (State.reportConditions s0 s).mgmt.batch = s.mgmt.batch := by simp [State.reportConditions]
@[simp] theorem State.reportConditions_mgmt_flags (s0 : State) (s : State) : (State.reportConditions s0 s).mgmt.flags = s.mgmt.flags := by simp [State.reportConditions]
@[simp] theorem State.reportConditions_mgmt_enables (s0 : State) (s : State) : (State.reportConditions s0 s).mgmt.enables = s.mgmt.enables := by simp [State.reportConditions]
@[simp] theorem State.reportConditions_mgmt_conditions (s0 : State) (s : State) : (State.reportConditions s0 s).mgmt.conditions = s.mgmt.conditions := by simp [State.reportConditions]
@[simp] theorem State.reportConditions_mgmt_counters (s0 : State) (s : State) : (State.reportConditions s0 s).mgmt.counters = s.mgmt.counters := by simp [State.reportConditions]

/-! #### putSite -/

@[simp] theorem State.putSite_pending (x : Nat) (r : SiteRecord) (s : State) : (s.putSite x r).pending = s.pending := rfl
@[simp] theorem State.putSite_now (x : Nat) (r : SiteRecord) (s : State) : (s.putSite x r).now = s.now := rfl
@[simp] theorem State.putSite_straps (x : Nat) (r : SiteRecord) (s : State) : (s.putSite x r).straps = s.straps := rfl
@[simp] theorem State.putSite_classifier (x : Nat) (r : SiteRecord) (s : State) : (s.putSite x r).classifier = s.classifier := rfl
@[simp] theorem State.putSite_monitor_inbox (x : Nat) (r : SiteRecord) (s : State) : (s.putSite x r).monitor.inbox = s.monitor.inbox := rfl
@[simp] theorem State.putSite_vote (x : Nat) (r : SiteRecord) (s : State) : (s.putSite x r).vote = s.vote := rfl
@[simp] theorem State.putSite_loc (x : Nat) (r : SiteRecord) (s : State) : (s.putSite x r).loc = s.loc := rfl
@[simp] theorem State.putSite_reach (x : Nat) (r : SiteRecord) (s : State) : (s.putSite x r).reach = s.reach := rfl
@[simp] theorem State.putSite_egress (x : Nat) (r : SiteRecord) (s : State) : (s.putSite x r).egress = s.egress := rfl
@[simp] theorem State.putSite_mgmt (x : Nat) (r : SiteRecord) (s : State) : (s.putSite x r).mgmt = s.mgmt := rfl

/-! #### dropped -/

@[simp] theorem State.dropped_pending (c : CounterId) (v : Offer) (s : State) : (s.dropped c v).pending = s.pending := by cases v <;> rfl
@[simp] theorem State.dropped_now (c : CounterId) (v : Offer) (s : State) : (s.dropped c v).now = s.now := by cases v <;> rfl
@[simp] theorem State.dropped_straps (c : CounterId) (v : Offer) (s : State) : (s.dropped c v).straps = s.straps := by cases v <;> rfl
@[simp] theorem State.dropped_classifier (c : CounterId) (v : Offer) (s : State) : (s.dropped c v).classifier = s.classifier := by cases v <;> rfl
@[simp] theorem State.dropped_monitor (c : CounterId) (v : Offer) (s : State) : (s.dropped c v).monitor = s.monitor := by cases v <;> rfl
@[simp] theorem State.dropped_vote (c : CounterId) (v : Offer) (s : State) : (s.dropped c v).vote = s.vote := by cases v <;> rfl
@[simp] theorem State.dropped_loc (c : CounterId) (v : Offer) (s : State) : (s.dropped c v).loc = s.loc := by cases v <;> rfl
@[simp] theorem State.dropped_reach (c : CounterId) (v : Offer) (s : State) : (s.dropped c v).reach = s.reach := by cases v <;> rfl
@[simp] theorem State.dropped_egress (c : CounterId) (v : Offer) (s : State) : (s.dropped c v).egress = s.egress := by cases v <;> rfl
@[simp] theorem State.dropped_mgmt_run (c : CounterId) (v : Offer) (s : State) : (s.dropped c v).mgmt.run = s.mgmt.run := by cases v <;> rfl
@[simp] theorem State.dropped_mgmt_lock (c : CounterId) (v : Offer) (s : State) : (s.dropped c v).mgmt.lock = s.mgmt.lock := by cases v <;> rfl
@[simp] theorem State.dropped_mgmt_causes (c : CounterId) (v : Offer) (s : State) : (s.dropped c v).mgmt.causes = s.mgmt.causes := by cases v <;> rfl
@[simp] theorem State.dropped_mgmt_unit (c : CounterId) (v : Offer) (s : State) : (s.dropped c v).mgmt.unit = s.mgmt.unit := by cases v <;> rfl
@[simp] theorem State.dropped_mgmt_inbox (c : CounterId) (v : Offer) (s : State) : (s.dropped c v).mgmt.inbox = s.mgmt.inbox := by cases v <;> rfl
@[simp] theorem State.dropped_mgmt_requests (c : CounterId) (v : Offer) (s : State) : (s.dropped c v).mgmt.requests = s.mgmt.requests := by cases v <;> rfl
@[simp] theorem State.dropped_mgmt_batch (c : CounterId) (v : Offer) (s : State) : (s.dropped c v).mgmt.batch = s.mgmt.batch := by cases v <;> rfl
@[simp] theorem State.dropped_mgmt_flags (c : CounterId) (v : Offer) (s : State) : (s.dropped c v).mgmt.flags = s.mgmt.flags := by cases v <;> rfl
@[simp] theorem State.dropped_mgmt_enables (c : CounterId) (v : Offer) (s : State) : (s.dropped c v).mgmt.enables = s.mgmt.enables := by cases v <;> rfl
@[simp] theorem State.dropped_mgmt_conditions (c : CounterId) (v : Offer) (s : State) : (s.dropped c v).mgmt.conditions = s.mgmt.conditions := by cases v <;> rfl

/-! #### pushControl -/

@[simp] theorem State.pushControl_pending (x : Nat) (f : ControlFrame) (s : State) : (s.pushControl x f).pending = s.pending := rfl
@[simp] theorem State.pushControl_now (x : Nat) (f : ControlFrame) (s : State) : (s.pushControl x f).now = s.now := rfl
@[simp] theorem State.pushControl_straps (x : Nat) (f : ControlFrame) (s : State) : (s.pushControl x f).straps = s.straps := rfl
@[simp] theorem State.pushControl_classifier (x : Nat) (f : ControlFrame) (s : State) : (s.pushControl x f).classifier = s.classifier := rfl
@[simp] theorem State.pushControl_monitor (x : Nat) (f : ControlFrame) (s : State) : (s.pushControl x f).monitor = s.monitor := rfl
@[simp] theorem State.pushControl_vote (x : Nat) (f : ControlFrame) (s : State) : (s.pushControl x f).vote = s.vote := rfl
@[simp] theorem State.pushControl_loc (x : Nat) (f : ControlFrame) (s : State) : (s.pushControl x f).loc = s.loc := rfl
@[simp] theorem State.pushControl_reach (x : Nat) (f : ControlFrame) (s : State) : (s.pushControl x f).reach = s.reach := rfl
@[simp] theorem State.pushControl_egress_voice (x : Nat) (f : ControlFrame) (s : State) : (s.pushControl x f).egress.voice = s.egress.voice := rfl
@[simp] theorem State.pushControl_egress_core (x : Nat) (f : ControlFrame) (s : State) : (s.pushControl x f).egress.core = s.egress.core := rfl
@[simp] theorem State.pushControl_egress_credits (x : Nat) (f : ControlFrame) (s : State) : (s.pushControl x f).egress.credits = s.egress.credits := rfl
@[simp] theorem State.pushControl_egress_pointer (x : Nat) (f : ControlFrame) (s : State) : (s.pushControl x f).egress.pointer = s.egress.pointer := rfl
@[simp] theorem State.pushControl_egress_siteTx (x : Nat) (f : ControlFrame) (s : State) : (s.pushControl x f).egress.siteTx = s.egress.siteTx := rfl
@[simp] theorem State.pushControl_egress_coreTx (x : Nat) (f : ControlFrame) (s : State) : (s.pushControl x f).egress.coreTx = s.egress.coreTx := rfl
@[simp] theorem State.pushControl_egress_reports (x : Nat) (f : ControlFrame) (s : State) : (s.pushControl x f).egress.reports = s.egress.reports := rfl
@[simp] theorem State.pushControl_mgmt (x : Nat) (f : ControlFrame) (s : State) : (s.pushControl x f).mgmt = s.mgmt := rfl

/-! #### pushVoice -/

@[simp] theorem State.pushVoice_pending (x : Nat) (f : DownlinkCopy) (s : State) : (s.pushVoice x f).pending = s.pending := rfl
@[simp] theorem State.pushVoice_now (x : Nat) (f : DownlinkCopy) (s : State) : (s.pushVoice x f).now = s.now := rfl
@[simp] theorem State.pushVoice_straps (x : Nat) (f : DownlinkCopy) (s : State) : (s.pushVoice x f).straps = s.straps := rfl
@[simp] theorem State.pushVoice_classifier (x : Nat) (f : DownlinkCopy) (s : State) : (s.pushVoice x f).classifier = s.classifier := rfl
@[simp] theorem State.pushVoice_monitor (x : Nat) (f : DownlinkCopy) (s : State) : (s.pushVoice x f).monitor = s.monitor := rfl
@[simp] theorem State.pushVoice_vote (x : Nat) (f : DownlinkCopy) (s : State) : (s.pushVoice x f).vote = s.vote := rfl
@[simp] theorem State.pushVoice_loc (x : Nat) (f : DownlinkCopy) (s : State) : (s.pushVoice x f).loc = s.loc := rfl
@[simp] theorem State.pushVoice_reach (x : Nat) (f : DownlinkCopy) (s : State) : (s.pushVoice x f).reach = s.reach := rfl
@[simp] theorem State.pushVoice_egress_control (x : Nat) (f : DownlinkCopy) (s : State) : (s.pushVoice x f).egress.control = s.egress.control := rfl
@[simp] theorem State.pushVoice_egress_core (x : Nat) (f : DownlinkCopy) (s : State) : (s.pushVoice x f).egress.core = s.egress.core := rfl
@[simp] theorem State.pushVoice_egress_credits (x : Nat) (f : DownlinkCopy) (s : State) : (s.pushVoice x f).egress.credits = s.egress.credits := rfl
@[simp] theorem State.pushVoice_egress_pointer (x : Nat) (f : DownlinkCopy) (s : State) : (s.pushVoice x f).egress.pointer = s.egress.pointer := rfl
@[simp] theorem State.pushVoice_egress_siteTx (x : Nat) (f : DownlinkCopy) (s : State) : (s.pushVoice x f).egress.siteTx = s.egress.siteTx := rfl
@[simp] theorem State.pushVoice_egress_coreTx (x : Nat) (f : DownlinkCopy) (s : State) : (s.pushVoice x f).egress.coreTx = s.egress.coreTx := rfl
@[simp] theorem State.pushVoice_egress_reports (x : Nat) (f : DownlinkCopy) (s : State) : (s.pushVoice x f).egress.reports = s.egress.reports := rfl
@[simp] theorem State.pushVoice_mgmt (x : Nat) (f : DownlinkCopy) (s : State) : (s.pushVoice x f).mgmt = s.mgmt := rfl

/-! #### pushCore -/

@[simp] theorem State.pushCore_pending (f : CoreFrame) (s : State) : (s.pushCore f).pending = s.pending := rfl
@[simp] theorem State.pushCore_now (f : CoreFrame) (s : State) : (s.pushCore f).now = s.now := rfl
@[simp] theorem State.pushCore_straps (f : CoreFrame) (s : State) : (s.pushCore f).straps = s.straps := rfl
@[simp] theorem State.pushCore_classifier (f : CoreFrame) (s : State) : (s.pushCore f).classifier = s.classifier := rfl
@[simp] theorem State.pushCore_monitor (f : CoreFrame) (s : State) : (s.pushCore f).monitor = s.monitor := rfl
@[simp] theorem State.pushCore_vote (f : CoreFrame) (s : State) : (s.pushCore f).vote = s.vote := rfl
@[simp] theorem State.pushCore_loc (f : CoreFrame) (s : State) : (s.pushCore f).loc = s.loc := rfl
@[simp] theorem State.pushCore_reach (f : CoreFrame) (s : State) : (s.pushCore f).reach = s.reach := rfl
@[simp] theorem State.pushCore_egress_control (f : CoreFrame) (s : State) : (s.pushCore f).egress.control = s.egress.control := rfl
@[simp] theorem State.pushCore_egress_voice (f : CoreFrame) (s : State) : (s.pushCore f).egress.voice = s.egress.voice := rfl
@[simp] theorem State.pushCore_egress_credits (f : CoreFrame) (s : State) : (s.pushCore f).egress.credits = s.egress.credits := rfl
@[simp] theorem State.pushCore_egress_pointer (f : CoreFrame) (s : State) : (s.pushCore f).egress.pointer = s.egress.pointer := rfl
@[simp] theorem State.pushCore_egress_siteTx (f : CoreFrame) (s : State) : (s.pushCore f).egress.siteTx = s.egress.siteTx := rfl
@[simp] theorem State.pushCore_egress_coreTx (f : CoreFrame) (s : State) : (s.pushCore f).egress.coreTx = s.egress.coreTx := rfl
@[simp] theorem State.pushCore_egress_reports (f : CoreFrame) (s : State) : (s.pushCore f).egress.reports = s.egress.reports := rfl
@[simp] theorem State.pushCore_mgmt (f : CoreFrame) (s : State) : (s.pushCore f).mgmt = s.mgmt := rfl

/-! #### offerControl -/

@[simp] theorem State.offerControl_pending (x : Nat) (f : ControlFrame) (s : State) : ((s.offerControl x f).1).pending = s.pending := by unfold State.offerControl; split <;> simp
@[simp] theorem State.offerControl_now (x : Nat) (f : ControlFrame) (s : State) : ((s.offerControl x f).1).now = s.now := by unfold State.offerControl; split <;> simp
@[simp] theorem State.offerControl_straps (x : Nat) (f : ControlFrame) (s : State) : ((s.offerControl x f).1).straps = s.straps := by unfold State.offerControl; split <;> simp
@[simp] theorem State.offerControl_classifier (x : Nat) (f : ControlFrame) (s : State) : ((s.offerControl x f).1).classifier = s.classifier := by unfold State.offerControl; split <;> simp
@[simp] theorem State.offerControl_monitor (x : Nat) (f : ControlFrame) (s : State) : ((s.offerControl x f).1).monitor = s.monitor := by unfold State.offerControl; split <;> simp
@[simp] theorem State.offerControl_vote (x : Nat) (f : ControlFrame) (s : State) : ((s.offerControl x f).1).vote = s.vote := by unfold State.offerControl; split <;> simp
@[simp] theorem State.offerControl_loc (x : Nat) (f : ControlFrame) (s : State) : ((s.offerControl x f).1).loc = s.loc := by unfold State.offerControl; split <;> simp
@[simp] theorem State.offerControl_reach (x : Nat) (f : ControlFrame) (s : State) : ((s.offerControl x f).1).reach = s.reach := by unfold State.offerControl; split <;> simp
@[simp] theorem State.offerControl_egress_voice (x : Nat) (f : ControlFrame) (s : State) : ((s.offerControl x f).1).egress.voice = s.egress.voice := by unfold State.offerControl; split <;> simp
@[simp] theorem State.offerControl_egress_core (x : Nat) (f : ControlFrame) (s : State) : ((s.offerControl x f).1).egress.core = s.egress.core := by unfold State.offerControl; split <;> simp
@[simp] theorem State.offerControl_egress_credits (x : Nat) (f : ControlFrame) (s : State) : ((s.offerControl x f).1).egress.credits = s.egress.credits := by unfold State.offerControl; split <;> simp
@[simp] theorem State.offerControl_egress_pointer (x : Nat) (f : ControlFrame) (s : State) : ((s.offerControl x f).1).egress.pointer = s.egress.pointer := by unfold State.offerControl; split <;> simp
@[simp] theorem State.offerControl_egress_siteTx (x : Nat) (f : ControlFrame) (s : State) : ((s.offerControl x f).1).egress.siteTx = s.egress.siteTx := by unfold State.offerControl; split <;> simp
@[simp] theorem State.offerControl_egress_coreTx (x : Nat) (f : ControlFrame) (s : State) : ((s.offerControl x f).1).egress.coreTx = s.egress.coreTx := by unfold State.offerControl; split <;> simp
@[simp] theorem State.offerControl_egress_reports (x : Nat) (f : ControlFrame) (s : State) : ((s.offerControl x f).1).egress.reports = s.egress.reports := by unfold State.offerControl; split <;> simp
@[simp] theorem State.offerControl_mgmt_run (x : Nat) (f : ControlFrame) (s : State) : ((s.offerControl x f).1).mgmt.run = s.mgmt.run := by unfold State.offerControl; split <;> simp
@[simp] theorem State.offerControl_mgmt_lock (x : Nat) (f : ControlFrame) (s : State) : ((s.offerControl x f).1).mgmt.lock = s.mgmt.lock := by unfold State.offerControl; split <;> simp
@[simp] theorem State.offerControl_mgmt_causes (x : Nat) (f : ControlFrame) (s : State) : ((s.offerControl x f).1).mgmt.causes = s.mgmt.causes := by unfold State.offerControl; split <;> simp
@[simp] theorem State.offerControl_mgmt_unit (x : Nat) (f : ControlFrame) (s : State) : ((s.offerControl x f).1).mgmt.unit = s.mgmt.unit := by unfold State.offerControl; split <;> simp
@[simp] theorem State.offerControl_mgmt_inbox (x : Nat) (f : ControlFrame) (s : State) : ((s.offerControl x f).1).mgmt.inbox = s.mgmt.inbox := by unfold State.offerControl; split <;> simp
@[simp] theorem State.offerControl_mgmt_requests (x : Nat) (f : ControlFrame) (s : State) : ((s.offerControl x f).1).mgmt.requests = s.mgmt.requests := by unfold State.offerControl; split <;> simp
@[simp] theorem State.offerControl_mgmt_batch (x : Nat) (f : ControlFrame) (s : State) : ((s.offerControl x f).1).mgmt.batch = s.mgmt.batch := by unfold State.offerControl; split <;> simp
@[simp] theorem State.offerControl_mgmt_flags (x : Nat) (f : ControlFrame) (s : State) : ((s.offerControl x f).1).mgmt.flags = s.mgmt.flags := by unfold State.offerControl; split <;> simp
@[simp] theorem State.offerControl_mgmt_enables (x : Nat) (f : ControlFrame) (s : State) : ((s.offerControl x f).1).mgmt.enables = s.mgmt.enables := by unfold State.offerControl; split <;> simp
@[simp] theorem State.offerControl_mgmt_conditions (x : Nat) (f : ControlFrame) (s : State) : ((s.offerControl x f).1).mgmt.conditions = s.mgmt.conditions := by unfold State.offerControl; split <;> simp

/-! #### offerVoice -/

@[simp] theorem State.offerVoice_pending (x : Nat) (f : DownlinkCopy) (s : State) : ((s.offerVoice x f).1).pending = s.pending := by unfold State.offerVoice; split <;> simp
@[simp] theorem State.offerVoice_now (x : Nat) (f : DownlinkCopy) (s : State) : ((s.offerVoice x f).1).now = s.now := by unfold State.offerVoice; split <;> simp
@[simp] theorem State.offerVoice_straps (x : Nat) (f : DownlinkCopy) (s : State) : ((s.offerVoice x f).1).straps = s.straps := by unfold State.offerVoice; split <;> simp
@[simp] theorem State.offerVoice_classifier (x : Nat) (f : DownlinkCopy) (s : State) : ((s.offerVoice x f).1).classifier = s.classifier := by unfold State.offerVoice; split <;> simp
@[simp] theorem State.offerVoice_monitor (x : Nat) (f : DownlinkCopy) (s : State) : ((s.offerVoice x f).1).monitor = s.monitor := by unfold State.offerVoice; split <;> simp
@[simp] theorem State.offerVoice_vote (x : Nat) (f : DownlinkCopy) (s : State) : ((s.offerVoice x f).1).vote = s.vote := by unfold State.offerVoice; split <;> simp
@[simp] theorem State.offerVoice_loc (x : Nat) (f : DownlinkCopy) (s : State) : ((s.offerVoice x f).1).loc = s.loc := by unfold State.offerVoice; split <;> simp
@[simp] theorem State.offerVoice_reach (x : Nat) (f : DownlinkCopy) (s : State) : ((s.offerVoice x f).1).reach = s.reach := by unfold State.offerVoice; split <;> simp
@[simp] theorem State.offerVoice_egress_control (x : Nat) (f : DownlinkCopy) (s : State) : ((s.offerVoice x f).1).egress.control = s.egress.control := by unfold State.offerVoice; split <;> simp
@[simp] theorem State.offerVoice_egress_core (x : Nat) (f : DownlinkCopy) (s : State) : ((s.offerVoice x f).1).egress.core = s.egress.core := by unfold State.offerVoice; split <;> simp
@[simp] theorem State.offerVoice_egress_credits (x : Nat) (f : DownlinkCopy) (s : State) : ((s.offerVoice x f).1).egress.credits = s.egress.credits := by unfold State.offerVoice; split <;> simp
@[simp] theorem State.offerVoice_egress_pointer (x : Nat) (f : DownlinkCopy) (s : State) : ((s.offerVoice x f).1).egress.pointer = s.egress.pointer := by unfold State.offerVoice; split <;> simp
@[simp] theorem State.offerVoice_egress_siteTx (x : Nat) (f : DownlinkCopy) (s : State) : ((s.offerVoice x f).1).egress.siteTx = s.egress.siteTx := by unfold State.offerVoice; split <;> simp
@[simp] theorem State.offerVoice_egress_coreTx (x : Nat) (f : DownlinkCopy) (s : State) : ((s.offerVoice x f).1).egress.coreTx = s.egress.coreTx := by unfold State.offerVoice; split <;> simp
@[simp] theorem State.offerVoice_egress_reports (x : Nat) (f : DownlinkCopy) (s : State) : ((s.offerVoice x f).1).egress.reports = s.egress.reports := by unfold State.offerVoice; split <;> simp
@[simp] theorem State.offerVoice_mgmt_run (x : Nat) (f : DownlinkCopy) (s : State) : ((s.offerVoice x f).1).mgmt.run = s.mgmt.run := by unfold State.offerVoice; split <;> simp
@[simp] theorem State.offerVoice_mgmt_lock (x : Nat) (f : DownlinkCopy) (s : State) : ((s.offerVoice x f).1).mgmt.lock = s.mgmt.lock := by unfold State.offerVoice; split <;> simp
@[simp] theorem State.offerVoice_mgmt_causes (x : Nat) (f : DownlinkCopy) (s : State) : ((s.offerVoice x f).1).mgmt.causes = s.mgmt.causes := by unfold State.offerVoice; split <;> simp
@[simp] theorem State.offerVoice_mgmt_unit (x : Nat) (f : DownlinkCopy) (s : State) : ((s.offerVoice x f).1).mgmt.unit = s.mgmt.unit := by unfold State.offerVoice; split <;> simp
@[simp] theorem State.offerVoice_mgmt_inbox (x : Nat) (f : DownlinkCopy) (s : State) : ((s.offerVoice x f).1).mgmt.inbox = s.mgmt.inbox := by unfold State.offerVoice; split <;> simp
@[simp] theorem State.offerVoice_mgmt_requests (x : Nat) (f : DownlinkCopy) (s : State) : ((s.offerVoice x f).1).mgmt.requests = s.mgmt.requests := by unfold State.offerVoice; split <;> simp
@[simp] theorem State.offerVoice_mgmt_batch (x : Nat) (f : DownlinkCopy) (s : State) : ((s.offerVoice x f).1).mgmt.batch = s.mgmt.batch := by unfold State.offerVoice; split <;> simp
@[simp] theorem State.offerVoice_mgmt_flags (x : Nat) (f : DownlinkCopy) (s : State) : ((s.offerVoice x f).1).mgmt.flags = s.mgmt.flags := by unfold State.offerVoice; split <;> simp
@[simp] theorem State.offerVoice_mgmt_enables (x : Nat) (f : DownlinkCopy) (s : State) : ((s.offerVoice x f).1).mgmt.enables = s.mgmt.enables := by unfold State.offerVoice; split <;> simp
@[simp] theorem State.offerVoice_mgmt_conditions (x : Nat) (f : DownlinkCopy) (s : State) : ((s.offerVoice x f).1).mgmt.conditions = s.mgmt.conditions := by unfold State.offerVoice; split <;> simp

/-! #### offerCore -/

@[simp] theorem State.offerCore_pending (f : CoreFrame) (s : State) : (s.offerCore f).pending = s.pending := by unfold State.offerCore; split <;> simp
@[simp] theorem State.offerCore_now (f : CoreFrame) (s : State) : (s.offerCore f).now = s.now := by unfold State.offerCore; split <;> simp
@[simp] theorem State.offerCore_straps (f : CoreFrame) (s : State) : (s.offerCore f).straps = s.straps := by unfold State.offerCore; split <;> simp
@[simp] theorem State.offerCore_classifier (f : CoreFrame) (s : State) : (s.offerCore f).classifier = s.classifier := by unfold State.offerCore; split <;> simp
@[simp] theorem State.offerCore_monitor (f : CoreFrame) (s : State) : (s.offerCore f).monitor = s.monitor := by unfold State.offerCore; split <;> simp
@[simp] theorem State.offerCore_vote (f : CoreFrame) (s : State) : (s.offerCore f).vote = s.vote := by unfold State.offerCore; split <;> simp
@[simp] theorem State.offerCore_loc (f : CoreFrame) (s : State) : (s.offerCore f).loc = s.loc := by unfold State.offerCore; split <;> simp
@[simp] theorem State.offerCore_reach (f : CoreFrame) (s : State) : (s.offerCore f).reach = s.reach := by unfold State.offerCore; split <;> simp
@[simp] theorem State.offerCore_egress_control (f : CoreFrame) (s : State) : (s.offerCore f).egress.control = s.egress.control := by unfold State.offerCore; split <;> simp
@[simp] theorem State.offerCore_egress_voice (f : CoreFrame) (s : State) : (s.offerCore f).egress.voice = s.egress.voice := by unfold State.offerCore; split <;> simp
@[simp] theorem State.offerCore_egress_credits (f : CoreFrame) (s : State) : (s.offerCore f).egress.credits = s.egress.credits := by unfold State.offerCore; split <;> simp
@[simp] theorem State.offerCore_egress_pointer (f : CoreFrame) (s : State) : (s.offerCore f).egress.pointer = s.egress.pointer := by unfold State.offerCore; split <;> simp
@[simp] theorem State.offerCore_egress_siteTx (f : CoreFrame) (s : State) : (s.offerCore f).egress.siteTx = s.egress.siteTx := by unfold State.offerCore; split <;> simp
@[simp] theorem State.offerCore_egress_coreTx (f : CoreFrame) (s : State) : (s.offerCore f).egress.coreTx = s.egress.coreTx := by unfold State.offerCore; split <;> simp
@[simp] theorem State.offerCore_egress_reports (f : CoreFrame) (s : State) : (s.offerCore f).egress.reports = s.egress.reports := by unfold State.offerCore; split <;> simp
@[simp] theorem State.offerCore_mgmt_run (f : CoreFrame) (s : State) : (s.offerCore f).mgmt.run = s.mgmt.run := by unfold State.offerCore; split <;> simp
@[simp] theorem State.offerCore_mgmt_lock (f : CoreFrame) (s : State) : (s.offerCore f).mgmt.lock = s.mgmt.lock := by unfold State.offerCore; split <;> simp
@[simp] theorem State.offerCore_mgmt_causes (f : CoreFrame) (s : State) : (s.offerCore f).mgmt.causes = s.mgmt.causes := by unfold State.offerCore; split <;> simp
@[simp] theorem State.offerCore_mgmt_unit (f : CoreFrame) (s : State) : (s.offerCore f).mgmt.unit = s.mgmt.unit := by unfold State.offerCore; split <;> simp
@[simp] theorem State.offerCore_mgmt_inbox (f : CoreFrame) (s : State) : (s.offerCore f).mgmt.inbox = s.mgmt.inbox := by unfold State.offerCore; split <;> simp
@[simp] theorem State.offerCore_mgmt_requests (f : CoreFrame) (s : State) : (s.offerCore f).mgmt.requests = s.mgmt.requests := by unfold State.offerCore; split <;> simp
@[simp] theorem State.offerCore_mgmt_batch (f : CoreFrame) (s : State) : (s.offerCore f).mgmt.batch = s.mgmt.batch := by unfold State.offerCore; split <;> simp
@[simp] theorem State.offerCore_mgmt_flags (f : CoreFrame) (s : State) : (s.offerCore f).mgmt.flags = s.mgmt.flags := by unfold State.offerCore; split <;> simp
@[simp] theorem State.offerCore_mgmt_enables (f : CoreFrame) (s : State) : (s.offerCore f).mgmt.enables = s.mgmt.enables := by unfold State.offerCore; split <;> simp
@[simp] theorem State.offerCore_mgmt_conditions (f : CoreFrame) (s : State) : (s.offerCore f).mgmt.conditions = s.mgmt.conditions := by unfold State.offerCore; split <;> simp

/-! #### respond -/

@[simp] theorem State.respond_pending (t : BitVec 16) (r : Result) (b : List Byte) (s : State) : (s.respond t r b).pending = s.pending := by simp [State.respond]
@[simp] theorem State.respond_now (t : BitVec 16) (r : Result) (b : List Byte) (s : State) : (s.respond t r b).now = s.now := by simp [State.respond]
@[simp] theorem State.respond_straps (t : BitVec 16) (r : Result) (b : List Byte) (s : State) : (s.respond t r b).straps = s.straps := by simp [State.respond]
@[simp] theorem State.respond_classifier (t : BitVec 16) (r : Result) (b : List Byte) (s : State) : (s.respond t r b).classifier = s.classifier := by simp [State.respond]
@[simp] theorem State.respond_monitor (t : BitVec 16) (r : Result) (b : List Byte) (s : State) : (s.respond t r b).monitor = s.monitor := by simp [State.respond]
@[simp] theorem State.respond_vote (t : BitVec 16) (r : Result) (b : List Byte) (s : State) : (s.respond t r b).vote = s.vote := by simp [State.respond]
@[simp] theorem State.respond_loc (t : BitVec 16) (r : Result) (b : List Byte) (s : State) : (s.respond t r b).loc = s.loc := by simp [State.respond]
@[simp] theorem State.respond_reach (t : BitVec 16) (r : Result) (b : List Byte) (s : State) : (s.respond t r b).reach = s.reach := by simp [State.respond]
@[simp] theorem State.respond_egress_control (t : BitVec 16) (r : Result) (b : List Byte) (s : State) : (s.respond t r b).egress.control = s.egress.control := by simp [State.respond]
@[simp] theorem State.respond_egress_voice (t : BitVec 16) (r : Result) (b : List Byte) (s : State) : (s.respond t r b).egress.voice = s.egress.voice := by simp [State.respond]
@[simp] theorem State.respond_egress_credits (t : BitVec 16) (r : Result) (b : List Byte) (s : State) : (s.respond t r b).egress.credits = s.egress.credits := by simp [State.respond]
@[simp] theorem State.respond_egress_pointer (t : BitVec 16) (r : Result) (b : List Byte) (s : State) : (s.respond t r b).egress.pointer = s.egress.pointer := by simp [State.respond]
@[simp] theorem State.respond_egress_siteTx (t : BitVec 16) (r : Result) (b : List Byte) (s : State) : (s.respond t r b).egress.siteTx = s.egress.siteTx := by simp [State.respond]
@[simp] theorem State.respond_egress_coreTx (t : BitVec 16) (r : Result) (b : List Byte) (s : State) : (s.respond t r b).egress.coreTx = s.egress.coreTx := by simp [State.respond]
@[simp] theorem State.respond_egress_reports (t : BitVec 16) (r : Result) (b : List Byte) (s : State) : (s.respond t r b).egress.reports = s.egress.reports := by simp [State.respond]
@[simp] theorem State.respond_mgmt_run (t : BitVec 16) (r : Result) (b : List Byte) (s : State) : (s.respond t r b).mgmt.run = s.mgmt.run := by simp [State.respond]
@[simp] theorem State.respond_mgmt_lock (t : BitVec 16) (r : Result) (b : List Byte) (s : State) : (s.respond t r b).mgmt.lock = s.mgmt.lock := by simp [State.respond]
@[simp] theorem State.respond_mgmt_causes (t : BitVec 16) (r : Result) (b : List Byte) (s : State) : (s.respond t r b).mgmt.causes = s.mgmt.causes := by simp [State.respond]
@[simp] theorem State.respond_mgmt_unit (t : BitVec 16) (r : Result) (b : List Byte) (s : State) : (s.respond t r b).mgmt.unit = s.mgmt.unit := by simp [State.respond]
@[simp] theorem State.respond_mgmt_inbox (t : BitVec 16) (r : Result) (b : List Byte) (s : State) : (s.respond t r b).mgmt.inbox = s.mgmt.inbox := by simp [State.respond]
@[simp] theorem State.respond_mgmt_requests (t : BitVec 16) (r : Result) (b : List Byte) (s : State) : (s.respond t r b).mgmt.requests = s.mgmt.requests := by simp [State.respond]
@[simp] theorem State.respond_mgmt_batch (t : BitVec 16) (r : Result) (b : List Byte) (s : State) : (s.respond t r b).mgmt.batch = s.mgmt.batch := by simp [State.respond]
@[simp] theorem State.respond_mgmt_flags (t : BitVec 16) (r : Result) (b : List Byte) (s : State) : (s.respond t r b).mgmt.flags = s.mgmt.flags := by simp [State.respond]
@[simp] theorem State.respond_mgmt_enables (t : BitVec 16) (r : Result) (b : List Byte) (s : State) : (s.respond t r b).mgmt.enables = s.mgmt.enables := by simp [State.respond]
@[simp] theorem State.respond_mgmt_conditions (t : BitVec 16) (r : Result) (b : List Byte) (s : State) : (s.respond t r b).mgmt.conditions = s.mgmt.conditions := by simp [State.respond]

/-! #### issueDirective -/

@[simp] theorem State.issueDirective_pending (d : Directive) (s : State) : (s.issueDirective d).pending = s.pending := by
  unfold State.issueDirective; split
  · generalize hq : s.offerControl _ _ = q
    have h : q.1.pending = s.pending := by rw [← hq]; simp
    obtain ⟨s1, v⟩ := q; cases v <;> simpa using h
  · rfl
@[simp] theorem State.issueDirective_now (d : Directive) (s : State) : (s.issueDirective d).now = s.now := by
  unfold State.issueDirective; split
  · generalize hq : s.offerControl _ _ = q
    have h : q.1.now = s.now := by rw [← hq]; simp
    obtain ⟨s1, v⟩ := q; cases v <;> simpa using h
  · rfl
@[simp] theorem State.issueDirective_straps (d : Directive) (s : State) : (s.issueDirective d).straps = s.straps := by
  unfold State.issueDirective; split
  · generalize hq : s.offerControl _ _ = q
    have h : q.1.straps = s.straps := by rw [← hq]; simp
    obtain ⟨s1, v⟩ := q; cases v <;> simpa using h
  · rfl
@[simp] theorem State.issueDirective_classifier (d : Directive) (s : State) : (s.issueDirective d).classifier = s.classifier := by
  unfold State.issueDirective; split
  · generalize hq : s.offerControl _ _ = q
    have h : q.1.classifier = s.classifier := by rw [← hq]; simp
    obtain ⟨s1, v⟩ := q; cases v <;> simpa using h
  · rfl
@[simp] theorem State.issueDirective_monitor (d : Directive) (s : State) : (s.issueDirective d).monitor = s.monitor := by
  unfold State.issueDirective; split
  · generalize hq : s.offerControl _ _ = q
    have h : q.1.monitor = s.monitor := by rw [← hq]; simp
    obtain ⟨s1, v⟩ := q; cases v <;> simpa using h
  · rfl
@[simp] theorem State.issueDirective_vote (d : Directive) (s : State) : (s.issueDirective d).vote = s.vote := by
  unfold State.issueDirective; split
  · generalize hq : s.offerControl _ _ = q
    have h : q.1.vote = s.vote := by rw [← hq]; simp
    obtain ⟨s1, v⟩ := q; cases v <;> simpa using h
  · rfl
@[simp] theorem State.issueDirective_loc (d : Directive) (s : State) : (s.issueDirective d).loc = s.loc := by
  unfold State.issueDirective; split
  · generalize hq : s.offerControl _ _ = q
    have h : q.1.loc = s.loc := by rw [← hq]; simp
    obtain ⟨s1, v⟩ := q; cases v <;> simpa using h
  · rfl
@[simp] theorem State.issueDirective_reach (d : Directive) (s : State) : (s.issueDirective d).reach = s.reach := by
  unfold State.issueDirective; split
  · generalize hq : s.offerControl _ _ = q
    have h : q.1.reach = s.reach := by rw [← hq]; simp
    obtain ⟨s1, v⟩ := q; cases v <;> simpa using h
  · rfl
@[simp] theorem State.issueDirective_egress_voice (d : Directive) (s : State) : (s.issueDirective d).egress.voice = s.egress.voice := by
  unfold State.issueDirective; split
  · generalize hq : s.offerControl _ _ = q
    have h : q.1.egress.voice = s.egress.voice := by rw [← hq]; simp
    obtain ⟨s1, v⟩ := q; cases v <;> simpa using h
  · rfl
@[simp] theorem State.issueDirective_egress_core (d : Directive) (s : State) : (s.issueDirective d).egress.core = s.egress.core := by
  unfold State.issueDirective; split
  · generalize hq : s.offerControl _ _ = q
    have h : q.1.egress.core = s.egress.core := by rw [← hq]; simp
    obtain ⟨s1, v⟩ := q; cases v <;> simpa using h
  · rfl
@[simp] theorem State.issueDirective_egress_credits (d : Directive) (s : State) : (s.issueDirective d).egress.credits = s.egress.credits := by
  unfold State.issueDirective; split
  · generalize hq : s.offerControl _ _ = q
    have h : q.1.egress.credits = s.egress.credits := by rw [← hq]; simp
    obtain ⟨s1, v⟩ := q; cases v <;> simpa using h
  · rfl
@[simp] theorem State.issueDirective_egress_pointer (d : Directive) (s : State) : (s.issueDirective d).egress.pointer = s.egress.pointer := by
  unfold State.issueDirective; split
  · generalize hq : s.offerControl _ _ = q
    have h : q.1.egress.pointer = s.egress.pointer := by rw [← hq]; simp
    obtain ⟨s1, v⟩ := q; cases v <;> simpa using h
  · rfl
@[simp] theorem State.issueDirective_egress_siteTx (d : Directive) (s : State) : (s.issueDirective d).egress.siteTx = s.egress.siteTx := by
  unfold State.issueDirective; split
  · generalize hq : s.offerControl _ _ = q
    have h : q.1.egress.siteTx = s.egress.siteTx := by rw [← hq]; simp
    obtain ⟨s1, v⟩ := q; cases v <;> simpa using h
  · rfl
@[simp] theorem State.issueDirective_egress_coreTx (d : Directive) (s : State) : (s.issueDirective d).egress.coreTx = s.egress.coreTx := by
  unfold State.issueDirective; split
  · generalize hq : s.offerControl _ _ = q
    have h : q.1.egress.coreTx = s.egress.coreTx := by rw [← hq]; simp
    obtain ⟨s1, v⟩ := q; cases v <;> simpa using h
  · rfl
@[simp] theorem State.issueDirective_egress_reports (d : Directive) (s : State) : (s.issueDirective d).egress.reports = s.egress.reports := by
  unfold State.issueDirective; split
  · generalize hq : s.offerControl _ _ = q
    have h : q.1.egress.reports = s.egress.reports := by rw [← hq]; simp
    obtain ⟨s1, v⟩ := q; cases v <;> simpa using h
  · rfl
@[simp] theorem State.issueDirective_mgmt_run (d : Directive) (s : State) : (s.issueDirective d).mgmt.run = s.mgmt.run := by
  unfold State.issueDirective; split
  · generalize hq : s.offerControl _ _ = q
    have h : q.1.mgmt.run = s.mgmt.run := by rw [← hq]; simp
    obtain ⟨s1, v⟩ := q; cases v <;> simpa using h
  · rfl
@[simp] theorem State.issueDirective_mgmt_lock (d : Directive) (s : State) : (s.issueDirective d).mgmt.lock = s.mgmt.lock := by
  unfold State.issueDirective; split
  · generalize hq : s.offerControl _ _ = q
    have h : q.1.mgmt.lock = s.mgmt.lock := by rw [← hq]; simp
    obtain ⟨s1, v⟩ := q; cases v <;> simpa using h
  · rfl
@[simp] theorem State.issueDirective_mgmt_causes (d : Directive) (s : State) : (s.issueDirective d).mgmt.causes = s.mgmt.causes := by
  unfold State.issueDirective; split
  · generalize hq : s.offerControl _ _ = q
    have h : q.1.mgmt.causes = s.mgmt.causes := by rw [← hq]; simp
    obtain ⟨s1, v⟩ := q; cases v <;> simpa using h
  · rfl
@[simp] theorem State.issueDirective_mgmt_unit (d : Directive) (s : State) : (s.issueDirective d).mgmt.unit = s.mgmt.unit := by
  unfold State.issueDirective; split
  · generalize hq : s.offerControl _ _ = q
    have h : q.1.mgmt.unit = s.mgmt.unit := by rw [← hq]; simp
    obtain ⟨s1, v⟩ := q; cases v <;> simpa using h
  · rfl
@[simp] theorem State.issueDirective_mgmt_inbox (d : Directive) (s : State) : (s.issueDirective d).mgmt.inbox = s.mgmt.inbox := by
  unfold State.issueDirective; split
  · generalize hq : s.offerControl _ _ = q
    have h : q.1.mgmt.inbox = s.mgmt.inbox := by rw [← hq]; simp
    obtain ⟨s1, v⟩ := q; cases v <;> simpa using h
  · rfl
@[simp] theorem State.issueDirective_mgmt_requests (d : Directive) (s : State) : (s.issueDirective d).mgmt.requests = s.mgmt.requests := by
  unfold State.issueDirective; split
  · generalize hq : s.offerControl _ _ = q
    have h : q.1.mgmt.requests = s.mgmt.requests := by rw [← hq]; simp
    obtain ⟨s1, v⟩ := q; cases v <;> simpa using h
  · rfl
@[simp] theorem State.issueDirective_mgmt_batch (d : Directive) (s : State) : (s.issueDirective d).mgmt.batch = s.mgmt.batch := by
  unfold State.issueDirective; split
  · generalize hq : s.offerControl _ _ = q
    have h : q.1.mgmt.batch = s.mgmt.batch := by rw [← hq]; simp
    obtain ⟨s1, v⟩ := q; cases v <;> simpa using h
  · rfl
@[simp] theorem State.issueDirective_mgmt_flags (d : Directive) (s : State) : (s.issueDirective d).mgmt.flags = s.mgmt.flags := by
  unfold State.issueDirective; split
  · generalize hq : s.offerControl _ _ = q
    have h : q.1.mgmt.flags = s.mgmt.flags := by rw [← hq]; simp
    obtain ⟨s1, v⟩ := q; cases v <;> simpa using h
  · rfl
@[simp] theorem State.issueDirective_mgmt_enables (d : Directive) (s : State) : (s.issueDirective d).mgmt.enables = s.mgmt.enables := by
  unfold State.issueDirective; split
  · generalize hq : s.offerControl _ _ = q
    have h : q.1.mgmt.enables = s.mgmt.enables := by rw [← hq]; simp
    obtain ⟨s1, v⟩ := q; cases v <;> simpa using h
  · rfl
@[simp] theorem State.issueDirective_mgmt_conditions (d : Directive) (s : State) : (s.issueDirective d).mgmt.conditions = s.mgmt.conditions := by
  unfold State.issueDirective; split
  · generalize hq : s.offerControl _ _ = q
    have h : q.1.mgmt.conditions = s.mgmt.conditions := by rw [← hq]; simp
    obtain ⟨s1, v⟩ := q; cases v <;> simpa using h
  · rfl

/-! #### notify -/

@[simp] theorem State.notify_pending (k : NoticeKind) (r : RadioId) (x y : Nat) (g : Talkgroup) (c : NoticeCause) (s : State) : (s.notify k r x y g c).pending = s.pending := by simp [State.notify]
@[simp] theorem State.notify_now (k : NoticeKind) (r : RadioId) (x y : Nat) (g : Talkgroup) (c : NoticeCause) (s : State) : (s.notify k r x y g c).now = s.now := by simp [State.notify]
@[simp] theorem State.notify_straps (k : NoticeKind) (r : RadioId) (x y : Nat) (g : Talkgroup) (c : NoticeCause) (s : State) : (s.notify k r x y g c).straps = s.straps := by simp [State.notify]
@[simp] theorem State.notify_classifier (k : NoticeKind) (r : RadioId) (x y : Nat) (g : Talkgroup) (c : NoticeCause) (s : State) : (s.notify k r x y g c).classifier = s.classifier := by simp [State.notify]
@[simp] theorem State.notify_monitor (k : NoticeKind) (r : RadioId) (x y : Nat) (g : Talkgroup) (c : NoticeCause) (s : State) : (s.notify k r x y g c).monitor = s.monitor := by simp [State.notify]
@[simp] theorem State.notify_vote (k : NoticeKind) (r : RadioId) (x y : Nat) (g : Talkgroup) (c : NoticeCause) (s : State) : (s.notify k r x y g c).vote = s.vote := by simp [State.notify]
@[simp] theorem State.notify_loc (k : NoticeKind) (r : RadioId) (x y : Nat) (g : Talkgroup) (c : NoticeCause) (s : State) : (s.notify k r x y g c).loc = s.loc := by simp [State.notify]
@[simp] theorem State.notify_reach (k : NoticeKind) (r : RadioId) (x y : Nat) (g : Talkgroup) (c : NoticeCause) (s : State) : (s.notify k r x y g c).reach = s.reach := by simp [State.notify]
@[simp] theorem State.notify_egress_control (k : NoticeKind) (r : RadioId) (x y : Nat) (g : Talkgroup) (c : NoticeCause) (s : State) : (s.notify k r x y g c).egress.control = s.egress.control := by simp [State.notify]
@[simp] theorem State.notify_egress_voice (k : NoticeKind) (r : RadioId) (x y : Nat) (g : Talkgroup) (c : NoticeCause) (s : State) : (s.notify k r x y g c).egress.voice = s.egress.voice := by simp [State.notify]
@[simp] theorem State.notify_egress_credits (k : NoticeKind) (r : RadioId) (x y : Nat) (g : Talkgroup) (c : NoticeCause) (s : State) : (s.notify k r x y g c).egress.credits = s.egress.credits := by simp [State.notify]
@[simp] theorem State.notify_egress_pointer (k : NoticeKind) (r : RadioId) (x y : Nat) (g : Talkgroup) (c : NoticeCause) (s : State) : (s.notify k r x y g c).egress.pointer = s.egress.pointer := by simp [State.notify]
@[simp] theorem State.notify_egress_siteTx (k : NoticeKind) (r : RadioId) (x y : Nat) (g : Talkgroup) (c : NoticeCause) (s : State) : (s.notify k r x y g c).egress.siteTx = s.egress.siteTx := by simp [State.notify]
@[simp] theorem State.notify_egress_coreTx (k : NoticeKind) (r : RadioId) (x y : Nat) (g : Talkgroup) (c : NoticeCause) (s : State) : (s.notify k r x y g c).egress.coreTx = s.egress.coreTx := by simp [State.notify]
@[simp] theorem State.notify_egress_reports (k : NoticeKind) (r : RadioId) (x y : Nat) (g : Talkgroup) (c : NoticeCause) (s : State) : (s.notify k r x y g c).egress.reports = s.egress.reports := by simp [State.notify]
@[simp] theorem State.notify_mgmt_run (k : NoticeKind) (r : RadioId) (x y : Nat) (g : Talkgroup) (c : NoticeCause) (s : State) : (s.notify k r x y g c).mgmt.run = s.mgmt.run := by simp [State.notify]
@[simp] theorem State.notify_mgmt_lock (k : NoticeKind) (r : RadioId) (x y : Nat) (g : Talkgroup) (c : NoticeCause) (s : State) : (s.notify k r x y g c).mgmt.lock = s.mgmt.lock := by simp [State.notify]
@[simp] theorem State.notify_mgmt_causes (k : NoticeKind) (r : RadioId) (x y : Nat) (g : Talkgroup) (c : NoticeCause) (s : State) : (s.notify k r x y g c).mgmt.causes = s.mgmt.causes := by simp [State.notify]
@[simp] theorem State.notify_mgmt_unit (k : NoticeKind) (r : RadioId) (x y : Nat) (g : Talkgroup) (c : NoticeCause) (s : State) : (s.notify k r x y g c).mgmt.unit = s.mgmt.unit := by simp [State.notify]
@[simp] theorem State.notify_mgmt_inbox (k : NoticeKind) (r : RadioId) (x y : Nat) (g : Talkgroup) (c : NoticeCause) (s : State) : (s.notify k r x y g c).mgmt.inbox = s.mgmt.inbox := by simp [State.notify]
@[simp] theorem State.notify_mgmt_requests (k : NoticeKind) (r : RadioId) (x y : Nat) (g : Talkgroup) (c : NoticeCause) (s : State) : (s.notify k r x y g c).mgmt.requests = s.mgmt.requests := by simp [State.notify]
@[simp] theorem State.notify_mgmt_batch (k : NoticeKind) (r : RadioId) (x y : Nat) (g : Talkgroup) (c : NoticeCause) (s : State) : (s.notify k r x y g c).mgmt.batch = s.mgmt.batch := by simp [State.notify]
@[simp] theorem State.notify_mgmt_flags (k : NoticeKind) (r : RadioId) (x y : Nat) (g : Talkgroup) (c : NoticeCause) (s : State) : (s.notify k r x y g c).mgmt.flags = s.mgmt.flags := by simp [State.notify]
@[simp] theorem State.notify_mgmt_enables (k : NoticeKind) (r : RadioId) (x y : Nat) (g : Talkgroup) (c : NoticeCause) (s : State) : (s.notify k r x y g c).mgmt.enables = s.mgmt.enables := by simp [State.notify]
@[simp] theorem State.notify_mgmt_conditions (k : NoticeKind) (r : RadioId) (x y : Nat) (g : Talkgroup) (c : NoticeCause) (s : State) : (s.notify k r x y g c).mgmt.conditions = s.mgmt.conditions := by simp [State.notify]

/-! #### writeEntry -/

@[simp] theorem State.writeEntry_pending (k : Nat) (e : Option Entry) (s : State) : (s.writeEntry k e).pending = s.pending := rfl
@[simp] theorem State.writeEntry_now (k : Nat) (e : Option Entry) (s : State) : (s.writeEntry k e).now = s.now := rfl
@[simp] theorem State.writeEntry_straps (k : Nat) (e : Option Entry) (s : State) : (s.writeEntry k e).straps = s.straps := rfl
@[simp] theorem State.writeEntry_classifier (k : Nat) (e : Option Entry) (s : State) : (s.writeEntry k e).classifier = s.classifier := rfl
@[simp] theorem State.writeEntry_monitor (k : Nat) (e : Option Entry) (s : State) : (s.writeEntry k e).monitor = s.monitor := rfl
@[simp] theorem State.writeEntry_vote (k : Nat) (e : Option Entry) (s : State) : (s.writeEntry k e).vote = s.vote := rfl
@[simp] theorem State.writeEntry_loc_epoch (k : Nat) (e : Option Entry) (s : State) : (s.writeEntry k e).loc.epoch = s.loc.epoch := rfl
@[simp] theorem State.writeEntry_loc_boundary (k : Nat) (e : Option Entry) (s : State) : (s.writeEntry k e).loc.boundary = s.loc.boundary := rfl
@[simp] theorem State.writeEntry_loc_policies (k : Nat) (e : Option Entry) (s : State) : (s.writeEntry k e).loc.policies = s.loc.policies := rfl
@[simp] theorem State.writeEntry_loc_ranges (k : Nat) (e : Option Entry) (s : State) : (s.writeEntry k e).loc.ranges = s.loc.ranges := rfl
@[simp] theorem State.writeEntry_loc_timing (k : Nat) (e : Option Entry) (s : State) : (s.writeEntry k e).loc.timing = s.loc.timing := rfl
@[simp] theorem State.writeEntry_loc_reports (k : Nat) (e : Option Entry) (s : State) : (s.writeEntry k e).loc.reports = s.loc.reports := rfl
@[simp] theorem State.writeEntry_loc_frames (k : Nat) (e : Option Entry) (s : State) : (s.writeEntry k e).loc.frames = s.loc.frames := rfl
@[simp] theorem State.writeEntry_reach (k : Nat) (e : Option Entry) (s : State) : (s.writeEntry k e).reach = s.reach := rfl
@[simp] theorem State.writeEntry_egress (k : Nat) (e : Option Entry) (s : State) : (s.writeEntry k e).egress = s.egress := rfl
@[simp] theorem State.writeEntry_mgmt (k : Nat) (e : Option Entry) (s : State) : (s.writeEntry k e).mgmt = s.mgmt := rfl

/-! #### modifyEntry -/

@[simp] theorem State.modifyEntry_pending (k : Nat) (f : Entry → Entry) (s : State) : (s.modifyEntry k f).pending = s.pending := by unfold State.modifyEntry; split <;> simp
@[simp] theorem State.modifyEntry_now (k : Nat) (f : Entry → Entry) (s : State) : (s.modifyEntry k f).now = s.now := by unfold State.modifyEntry; split <;> simp
@[simp] theorem State.modifyEntry_straps (k : Nat) (f : Entry → Entry) (s : State) : (s.modifyEntry k f).straps = s.straps := by unfold State.modifyEntry; split <;> simp
@[simp] theorem State.modifyEntry_classifier (k : Nat) (f : Entry → Entry) (s : State) : (s.modifyEntry k f).classifier = s.classifier := by unfold State.modifyEntry; split <;> simp
@[simp] theorem State.modifyEntry_monitor (k : Nat) (f : Entry → Entry) (s : State) : (s.modifyEntry k f).monitor = s.monitor := by unfold State.modifyEntry; split <;> simp
@[simp] theorem State.modifyEntry_vote (k : Nat) (f : Entry → Entry) (s : State) : (s.modifyEntry k f).vote = s.vote := by unfold State.modifyEntry; split <;> simp
@[simp] theorem State.modifyEntry_loc_epoch (k : Nat) (f : Entry → Entry) (s : State) : (s.modifyEntry k f).loc.epoch = s.loc.epoch := by unfold State.modifyEntry; split <;> simp
@[simp] theorem State.modifyEntry_loc_boundary (k : Nat) (f : Entry → Entry) (s : State) : (s.modifyEntry k f).loc.boundary = s.loc.boundary := by unfold State.modifyEntry; split <;> simp
@[simp] theorem State.modifyEntry_loc_policies (k : Nat) (f : Entry → Entry) (s : State) : (s.modifyEntry k f).loc.policies = s.loc.policies := by unfold State.modifyEntry; split <;> simp
@[simp] theorem State.modifyEntry_loc_ranges (k : Nat) (f : Entry → Entry) (s : State) : (s.modifyEntry k f).loc.ranges = s.loc.ranges := by unfold State.modifyEntry; split <;> simp
@[simp] theorem State.modifyEntry_loc_timing (k : Nat) (f : Entry → Entry) (s : State) : (s.modifyEntry k f).loc.timing = s.loc.timing := by unfold State.modifyEntry; split <;> simp
@[simp] theorem State.modifyEntry_loc_reports (k : Nat) (f : Entry → Entry) (s : State) : (s.modifyEntry k f).loc.reports = s.loc.reports := by unfold State.modifyEntry; split <;> simp
@[simp] theorem State.modifyEntry_loc_frames (k : Nat) (f : Entry → Entry) (s : State) : (s.modifyEntry k f).loc.frames = s.loc.frames := by unfold State.modifyEntry; split <;> simp
@[simp] theorem State.modifyEntry_reach (k : Nat) (f : Entry → Entry) (s : State) : (s.modifyEntry k f).reach = s.reach := by unfold State.modifyEntry; split <;> simp
@[simp] theorem State.modifyEntry_egress (k : Nat) (f : Entry → Entry) (s : State) : (s.modifyEntry k f).egress = s.egress := by unfold State.modifyEntry; split <;> simp
@[simp] theorem State.modifyEntry_mgmt (k : Nat) (f : Entry → Entry) (s : State) : (s.modifyEntry k f).mgmt = s.mgmt := by unfold State.modifyEntry; split <;> simp

/-! #### release -/

@[simp] theorem State.release_pending (e : Entry) (o : Nat) (s : State) : (s.release e o).pending = s.pending := by simp [State.release]
@[simp] theorem State.release_now (e : Entry) (o : Nat) (s : State) : (s.release e o).now = s.now := by simp [State.release]
@[simp] theorem State.release_straps (e : Entry) (o : Nat) (s : State) : (s.release e o).straps = s.straps := by simp [State.release]
@[simp] theorem State.release_classifier (e : Entry) (o : Nat) (s : State) : (s.release e o).classifier = s.classifier := by simp [State.release]
@[simp] theorem State.release_monitor (e : Entry) (o : Nat) (s : State) : (s.release e o).monitor = s.monitor := by simp [State.release]
@[simp] theorem State.release_vote (e : Entry) (o : Nat) (s : State) : (s.release e o).vote = s.vote := by simp [State.release]
@[simp] theorem State.release_loc (e : Entry) (o : Nat) (s : State) : (s.release e o).loc = s.loc := by simp [State.release]
@[simp] theorem State.release_reach (e : Entry) (o : Nat) (s : State) : (s.release e o).reach = s.reach := by simp [State.release]
@[simp] theorem State.release_egress_voice (e : Entry) (o : Nat) (s : State) : (s.release e o).egress.voice = s.egress.voice := by simp [State.release]
@[simp] theorem State.release_egress_core (e : Entry) (o : Nat) (s : State) : (s.release e o).egress.core = s.egress.core := by simp [State.release]
@[simp] theorem State.release_egress_credits (e : Entry) (o : Nat) (s : State) : (s.release e o).egress.credits = s.egress.credits := by simp [State.release]
@[simp] theorem State.release_egress_pointer (e : Entry) (o : Nat) (s : State) : (s.release e o).egress.pointer = s.egress.pointer := by simp [State.release]
@[simp] theorem State.release_egress_siteTx (e : Entry) (o : Nat) (s : State) : (s.release e o).egress.siteTx = s.egress.siteTx := by simp [State.release]
@[simp] theorem State.release_egress_coreTx (e : Entry) (o : Nat) (s : State) : (s.release e o).egress.coreTx = s.egress.coreTx := by simp [State.release]
@[simp] theorem State.release_egress_reports (e : Entry) (o : Nat) (s : State) : (s.release e o).egress.reports = s.egress.reports := by simp [State.release]
@[simp] theorem State.release_mgmt_run (e : Entry) (o : Nat) (s : State) : (s.release e o).mgmt.run = s.mgmt.run := by simp [State.release]
@[simp] theorem State.release_mgmt_lock (e : Entry) (o : Nat) (s : State) : (s.release e o).mgmt.lock = s.mgmt.lock := by simp [State.release]
@[simp] theorem State.release_mgmt_causes (e : Entry) (o : Nat) (s : State) : (s.release e o).mgmt.causes = s.mgmt.causes := by simp [State.release]
@[simp] theorem State.release_mgmt_unit (e : Entry) (o : Nat) (s : State) : (s.release e o).mgmt.unit = s.mgmt.unit := by simp [State.release]
@[simp] theorem State.release_mgmt_inbox (e : Entry) (o : Nat) (s : State) : (s.release e o).mgmt.inbox = s.mgmt.inbox := by simp [State.release]
@[simp] theorem State.release_mgmt_requests (e : Entry) (o : Nat) (s : State) : (s.release e o).mgmt.requests = s.mgmt.requests := by simp [State.release]
@[simp] theorem State.release_mgmt_batch (e : Entry) (o : Nat) (s : State) : (s.release e o).mgmt.batch = s.mgmt.batch := by simp [State.release]
@[simp] theorem State.release_mgmt_flags (e : Entry) (o : Nat) (s : State) : (s.release e o).mgmt.flags = s.mgmt.flags := by simp [State.release]
@[simp] theorem State.release_mgmt_enables (e : Entry) (o : Nat) (s : State) : (s.release e o).mgmt.enables = s.mgmt.enables := by simp [State.release]
@[simp] theorem State.release_mgmt_conditions (e : Entry) (o : Nat) (s : State) : (s.release e o).mgmt.conditions = s.mgmt.conditions := by simp [State.release]

/-! #### cancel -/

@[simp] theorem State.cancel_pending (e : Entry) (h : Handover) (s : State) : (s.cancel e h).pending = s.pending := by simp [State.cancel]
@[simp] theorem State.cancel_now (e : Entry) (h : Handover) (s : State) : (s.cancel e h).now = s.now := by simp [State.cancel]
@[simp] theorem State.cancel_straps (e : Entry) (h : Handover) (s : State) : (s.cancel e h).straps = s.straps := by simp [State.cancel]
@[simp] theorem State.cancel_classifier (e : Entry) (h : Handover) (s : State) : (s.cancel e h).classifier = s.classifier := by simp [State.cancel]
@[simp] theorem State.cancel_monitor (e : Entry) (h : Handover) (s : State) : (s.cancel e h).monitor = s.monitor := by simp [State.cancel]
@[simp] theorem State.cancel_vote (e : Entry) (h : Handover) (s : State) : (s.cancel e h).vote = s.vote := by simp [State.cancel]
@[simp] theorem State.cancel_loc (e : Entry) (h : Handover) (s : State) : (s.cancel e h).loc = s.loc := by simp [State.cancel]
@[simp] theorem State.cancel_reach (e : Entry) (h : Handover) (s : State) : (s.cancel e h).reach = s.reach := by simp [State.cancel]
@[simp] theorem State.cancel_egress_voice (e : Entry) (h : Handover) (s : State) : (s.cancel e h).egress.voice = s.egress.voice := by simp [State.cancel]
@[simp] theorem State.cancel_egress_core (e : Entry) (h : Handover) (s : State) : (s.cancel e h).egress.core = s.egress.core := by simp [State.cancel]
@[simp] theorem State.cancel_egress_credits (e : Entry) (h : Handover) (s : State) : (s.cancel e h).egress.credits = s.egress.credits := by simp [State.cancel]
@[simp] theorem State.cancel_egress_pointer (e : Entry) (h : Handover) (s : State) : (s.cancel e h).egress.pointer = s.egress.pointer := by simp [State.cancel]
@[simp] theorem State.cancel_egress_siteTx (e : Entry) (h : Handover) (s : State) : (s.cancel e h).egress.siteTx = s.egress.siteTx := by simp [State.cancel]
@[simp] theorem State.cancel_egress_coreTx (e : Entry) (h : Handover) (s : State) : (s.cancel e h).egress.coreTx = s.egress.coreTx := by simp [State.cancel]
@[simp] theorem State.cancel_egress_reports (e : Entry) (h : Handover) (s : State) : (s.cancel e h).egress.reports = s.egress.reports := by simp [State.cancel]
@[simp] theorem State.cancel_mgmt_run (e : Entry) (h : Handover) (s : State) : (s.cancel e h).mgmt.run = s.mgmt.run := by simp [State.cancel]
@[simp] theorem State.cancel_mgmt_lock (e : Entry) (h : Handover) (s : State) : (s.cancel e h).mgmt.lock = s.mgmt.lock := by simp [State.cancel]
@[simp] theorem State.cancel_mgmt_causes (e : Entry) (h : Handover) (s : State) : (s.cancel e h).mgmt.causes = s.mgmt.causes := by simp [State.cancel]
@[simp] theorem State.cancel_mgmt_unit (e : Entry) (h : Handover) (s : State) : (s.cancel e h).mgmt.unit = s.mgmt.unit := by simp [State.cancel]
@[simp] theorem State.cancel_mgmt_inbox (e : Entry) (h : Handover) (s : State) : (s.cancel e h).mgmt.inbox = s.mgmt.inbox := by simp [State.cancel]
@[simp] theorem State.cancel_mgmt_requests (e : Entry) (h : Handover) (s : State) : (s.cancel e h).mgmt.requests = s.mgmt.requests := by simp [State.cancel]
@[simp] theorem State.cancel_mgmt_batch (e : Entry) (h : Handover) (s : State) : (s.cancel e h).mgmt.batch = s.mgmt.batch := by simp [State.cancel]
@[simp] theorem State.cancel_mgmt_flags (e : Entry) (h : Handover) (s : State) : (s.cancel e h).mgmt.flags = s.mgmt.flags := by simp [State.cancel]
@[simp] theorem State.cancel_mgmt_enables (e : Entry) (h : Handover) (s : State) : (s.cancel e h).mgmt.enables = s.mgmt.enables := by simp [State.cancel]
@[simp] theorem State.cancel_mgmt_conditions (e : Entry) (h : Handover) (s : State) : (s.cancel e h).mgmt.conditions = s.mgmt.conditions := by simp [State.cancel]

/-! #### notifyShadow -/

@[simp] theorem State.notifyShadow_pending (e : Entry) (s : State) : (s.notifyShadow e).pending = s.pending := by simp [State.notifyShadow]
@[simp] theorem State.notifyShadow_now (e : Entry) (s : State) : (s.notifyShadow e).now = s.now := by simp [State.notifyShadow]
@[simp] theorem State.notifyShadow_straps (e : Entry) (s : State) : (s.notifyShadow e).straps = s.straps := by simp [State.notifyShadow]
@[simp] theorem State.notifyShadow_classifier (e : Entry) (s : State) : (s.notifyShadow e).classifier = s.classifier := by simp [State.notifyShadow]
@[simp] theorem State.notifyShadow_monitor (e : Entry) (s : State) : (s.notifyShadow e).monitor = s.monitor := by simp [State.notifyShadow]
@[simp] theorem State.notifyShadow_vote (e : Entry) (s : State) : (s.notifyShadow e).vote = s.vote := by simp [State.notifyShadow]
@[simp] theorem State.notifyShadow_loc (e : Entry) (s : State) : (s.notifyShadow e).loc = s.loc := by simp [State.notifyShadow]
@[simp] theorem State.notifyShadow_reach (e : Entry) (s : State) : (s.notifyShadow e).reach = s.reach := by simp [State.notifyShadow]
@[simp] theorem State.notifyShadow_egress_control (e : Entry) (s : State) : (s.notifyShadow e).egress.control = s.egress.control := by simp [State.notifyShadow]
@[simp] theorem State.notifyShadow_egress_voice (e : Entry) (s : State) : (s.notifyShadow e).egress.voice = s.egress.voice := by simp [State.notifyShadow]
@[simp] theorem State.notifyShadow_egress_credits (e : Entry) (s : State) : (s.notifyShadow e).egress.credits = s.egress.credits := by simp [State.notifyShadow]
@[simp] theorem State.notifyShadow_egress_pointer (e : Entry) (s : State) : (s.notifyShadow e).egress.pointer = s.egress.pointer := by simp [State.notifyShadow]
@[simp] theorem State.notifyShadow_egress_siteTx (e : Entry) (s : State) : (s.notifyShadow e).egress.siteTx = s.egress.siteTx := by simp [State.notifyShadow]
@[simp] theorem State.notifyShadow_egress_coreTx (e : Entry) (s : State) : (s.notifyShadow e).egress.coreTx = s.egress.coreTx := by simp [State.notifyShadow]
@[simp] theorem State.notifyShadow_egress_reports (e : Entry) (s : State) : (s.notifyShadow e).egress.reports = s.egress.reports := by simp [State.notifyShadow]
@[simp] theorem State.notifyShadow_mgmt_run (e : Entry) (s : State) : (s.notifyShadow e).mgmt.run = s.mgmt.run := by simp [State.notifyShadow]
@[simp] theorem State.notifyShadow_mgmt_lock (e : Entry) (s : State) : (s.notifyShadow e).mgmt.lock = s.mgmt.lock := by simp [State.notifyShadow]
@[simp] theorem State.notifyShadow_mgmt_causes (e : Entry) (s : State) : (s.notifyShadow e).mgmt.causes = s.mgmt.causes := by simp [State.notifyShadow]
@[simp] theorem State.notifyShadow_mgmt_unit (e : Entry) (s : State) : (s.notifyShadow e).mgmt.unit = s.mgmt.unit := by simp [State.notifyShadow]
@[simp] theorem State.notifyShadow_mgmt_inbox (e : Entry) (s : State) : (s.notifyShadow e).mgmt.inbox = s.mgmt.inbox := by simp [State.notifyShadow]
@[simp] theorem State.notifyShadow_mgmt_requests (e : Entry) (s : State) : (s.notifyShadow e).mgmt.requests = s.mgmt.requests := by simp [State.notifyShadow]
@[simp] theorem State.notifyShadow_mgmt_batch (e : Entry) (s : State) : (s.notifyShadow e).mgmt.batch = s.mgmt.batch := by simp [State.notifyShadow]
@[simp] theorem State.notifyShadow_mgmt_flags (e : Entry) (s : State) : (s.notifyShadow e).mgmt.flags = s.mgmt.flags := by simp [State.notifyShadow]
@[simp] theorem State.notifyShadow_mgmt_enables (e : Entry) (s : State) : (s.notifyShadow e).mgmt.enables = s.mgmt.enables := by simp [State.notifyShadow]
@[simp] theorem State.notifyShadow_mgmt_conditions (e : Entry) (s : State) : (s.notifyShadow e).mgmt.conditions = s.mgmt.conditions := by simp [State.notifyShadow]

/-! #### enterShadow -/

@[simp] theorem State.enterShadow_pending (k : Nat) (e : Entry) (s : State) : (s.enterShadow k e).pending = s.pending := by simp [State.enterShadow]
@[simp] theorem State.enterShadow_now (k : Nat) (e : Entry) (s : State) : (s.enterShadow k e).now = s.now := by simp [State.enterShadow]
@[simp] theorem State.enterShadow_straps (k : Nat) (e : Entry) (s : State) : (s.enterShadow k e).straps = s.straps := by simp [State.enterShadow]
@[simp] theorem State.enterShadow_classifier (k : Nat) (e : Entry) (s : State) : (s.enterShadow k e).classifier = s.classifier := by simp [State.enterShadow]
@[simp] theorem State.enterShadow_monitor (k : Nat) (e : Entry) (s : State) : (s.enterShadow k e).monitor = s.monitor := by simp [State.enterShadow]
@[simp] theorem State.enterShadow_vote (k : Nat) (e : Entry) (s : State) : (s.enterShadow k e).vote = s.vote := by simp [State.enterShadow]
@[simp] theorem State.enterShadow_loc_epoch (k : Nat) (e : Entry) (s : State) : (s.enterShadow k e).loc.epoch = s.loc.epoch := by simp [State.enterShadow]
@[simp] theorem State.enterShadow_loc_boundary (k : Nat) (e : Entry) (s : State) : (s.enterShadow k e).loc.boundary = s.loc.boundary := by simp [State.enterShadow]
@[simp] theorem State.enterShadow_loc_policies (k : Nat) (e : Entry) (s : State) : (s.enterShadow k e).loc.policies = s.loc.policies := by simp [State.enterShadow]
@[simp] theorem State.enterShadow_loc_ranges (k : Nat) (e : Entry) (s : State) : (s.enterShadow k e).loc.ranges = s.loc.ranges := by simp [State.enterShadow]
@[simp] theorem State.enterShadow_loc_timing (k : Nat) (e : Entry) (s : State) : (s.enterShadow k e).loc.timing = s.loc.timing := by simp [State.enterShadow]
@[simp] theorem State.enterShadow_loc_reports (k : Nat) (e : Entry) (s : State) : (s.enterShadow k e).loc.reports = s.loc.reports := by simp [State.enterShadow]
@[simp] theorem State.enterShadow_loc_frames (k : Nat) (e : Entry) (s : State) : (s.enterShadow k e).loc.frames = s.loc.frames := by simp [State.enterShadow]
@[simp] theorem State.enterShadow_reach (k : Nat) (e : Entry) (s : State) : (s.enterShadow k e).reach = s.reach := by simp [State.enterShadow]
@[simp] theorem State.enterShadow_egress_control (k : Nat) (e : Entry) (s : State) : (s.enterShadow k e).egress.control = s.egress.control := by simp [State.enterShadow]
@[simp] theorem State.enterShadow_egress_voice (k : Nat) (e : Entry) (s : State) : (s.enterShadow k e).egress.voice = s.egress.voice := by simp [State.enterShadow]
@[simp] theorem State.enterShadow_egress_credits (k : Nat) (e : Entry) (s : State) : (s.enterShadow k e).egress.credits = s.egress.credits := by simp [State.enterShadow]
@[simp] theorem State.enterShadow_egress_pointer (k : Nat) (e : Entry) (s : State) : (s.enterShadow k e).egress.pointer = s.egress.pointer := by simp [State.enterShadow]
@[simp] theorem State.enterShadow_egress_siteTx (k : Nat) (e : Entry) (s : State) : (s.enterShadow k e).egress.siteTx = s.egress.siteTx := by simp [State.enterShadow]
@[simp] theorem State.enterShadow_egress_coreTx (k : Nat) (e : Entry) (s : State) : (s.enterShadow k e).egress.coreTx = s.egress.coreTx := by simp [State.enterShadow]
@[simp] theorem State.enterShadow_egress_reports (k : Nat) (e : Entry) (s : State) : (s.enterShadow k e).egress.reports = s.egress.reports := by simp [State.enterShadow]
@[simp] theorem State.enterShadow_mgmt_run (k : Nat) (e : Entry) (s : State) : (s.enterShadow k e).mgmt.run = s.mgmt.run := by simp [State.enterShadow]
@[simp] theorem State.enterShadow_mgmt_lock (k : Nat) (e : Entry) (s : State) : (s.enterShadow k e).mgmt.lock = s.mgmt.lock := by simp [State.enterShadow]
@[simp] theorem State.enterShadow_mgmt_causes (k : Nat) (e : Entry) (s : State) : (s.enterShadow k e).mgmt.causes = s.mgmt.causes := by simp [State.enterShadow]
@[simp] theorem State.enterShadow_mgmt_unit (k : Nat) (e : Entry) (s : State) : (s.enterShadow k e).mgmt.unit = s.mgmt.unit := by simp [State.enterShadow]
@[simp] theorem State.enterShadow_mgmt_inbox (k : Nat) (e : Entry) (s : State) : (s.enterShadow k e).mgmt.inbox = s.mgmt.inbox := by simp [State.enterShadow]
@[simp] theorem State.enterShadow_mgmt_requests (k : Nat) (e : Entry) (s : State) : (s.enterShadow k e).mgmt.requests = s.mgmt.requests := by simp [State.enterShadow]
@[simp] theorem State.enterShadow_mgmt_batch (k : Nat) (e : Entry) (s : State) : (s.enterShadow k e).mgmt.batch = s.mgmt.batch := by simp [State.enterShadow]
@[simp] theorem State.enterShadow_mgmt_flags (k : Nat) (e : Entry) (s : State) : (s.enterShadow k e).mgmt.flags = s.mgmt.flags := by simp [State.enterShadow]
@[simp] theorem State.enterShadow_mgmt_enables (k : Nat) (e : Entry) (s : State) : (s.enterShadow k e).mgmt.enables = s.mgmt.enables := by simp [State.enterShadow]
@[simp] theorem State.enterShadow_mgmt_conditions (k : Nat) (e : Entry) (s : State) : (s.enterShadow k e).mgmt.conditions = s.mgmt.conditions := by simp [State.enterShadow]

/-! #### abandon -/

@[simp] theorem State.abandon_pending (k : Nat) (e : Entry) (h : Handover) (s : State) : (s.abandon k e h).pending = s.pending := by unfold State.abandon; dsimp only; split <;> split <;> simp
@[simp] theorem State.abandon_now (k : Nat) (e : Entry) (h : Handover) (s : State) : (s.abandon k e h).now = s.now := by unfold State.abandon; dsimp only; split <;> split <;> simp
@[simp] theorem State.abandon_straps (k : Nat) (e : Entry) (h : Handover) (s : State) : (s.abandon k e h).straps = s.straps := by unfold State.abandon; dsimp only; split <;> split <;> simp
@[simp] theorem State.abandon_classifier (k : Nat) (e : Entry) (h : Handover) (s : State) : (s.abandon k e h).classifier = s.classifier := by unfold State.abandon; dsimp only; split <;> split <;> simp
@[simp] theorem State.abandon_monitor (k : Nat) (e : Entry) (h : Handover) (s : State) : (s.abandon k e h).monitor = s.monitor := by unfold State.abandon; dsimp only; split <;> split <;> simp
@[simp] theorem State.abandon_vote (k : Nat) (e : Entry) (h : Handover) (s : State) : (s.abandon k e h).vote = s.vote := by unfold State.abandon; dsimp only; split <;> split <;> simp
@[simp] theorem State.abandon_loc_epoch (k : Nat) (e : Entry) (h : Handover) (s : State) : (s.abandon k e h).loc.epoch = s.loc.epoch := by unfold State.abandon; dsimp only; split <;> split <;> simp
@[simp] theorem State.abandon_loc_boundary (k : Nat) (e : Entry) (h : Handover) (s : State) : (s.abandon k e h).loc.boundary = s.loc.boundary := by unfold State.abandon; dsimp only; split <;> split <;> simp
@[simp] theorem State.abandon_loc_policies (k : Nat) (e : Entry) (h : Handover) (s : State) : (s.abandon k e h).loc.policies = s.loc.policies := by unfold State.abandon; dsimp only; split <;> split <;> simp
@[simp] theorem State.abandon_loc_ranges (k : Nat) (e : Entry) (h : Handover) (s : State) : (s.abandon k e h).loc.ranges = s.loc.ranges := by unfold State.abandon; dsimp only; split <;> split <;> simp
@[simp] theorem State.abandon_loc_timing (k : Nat) (e : Entry) (h : Handover) (s : State) : (s.abandon k e h).loc.timing = s.loc.timing := by unfold State.abandon; dsimp only; split <;> split <;> simp
@[simp] theorem State.abandon_loc_reports (k : Nat) (e : Entry) (h : Handover) (s : State) : (s.abandon k e h).loc.reports = s.loc.reports := by unfold State.abandon; dsimp only; split <;> split <;> simp
@[simp] theorem State.abandon_loc_frames (k : Nat) (e : Entry) (h : Handover) (s : State) : (s.abandon k e h).loc.frames = s.loc.frames := by unfold State.abandon; dsimp only; split <;> split <;> simp
@[simp] theorem State.abandon_reach (k : Nat) (e : Entry) (h : Handover) (s : State) : (s.abandon k e h).reach = s.reach := by unfold State.abandon; dsimp only; split <;> split <;> simp
@[simp] theorem State.abandon_egress_voice (k : Nat) (e : Entry) (h : Handover) (s : State) : (s.abandon k e h).egress.voice = s.egress.voice := by unfold State.abandon; dsimp only; split <;> split <;> simp
@[simp] theorem State.abandon_egress_credits (k : Nat) (e : Entry) (h : Handover) (s : State) : (s.abandon k e h).egress.credits = s.egress.credits := by unfold State.abandon; dsimp only; split <;> split <;> simp
@[simp] theorem State.abandon_egress_pointer (k : Nat) (e : Entry) (h : Handover) (s : State) : (s.abandon k e h).egress.pointer = s.egress.pointer := by unfold State.abandon; dsimp only; split <;> split <;> simp
@[simp] theorem State.abandon_egress_siteTx (k : Nat) (e : Entry) (h : Handover) (s : State) : (s.abandon k e h).egress.siteTx = s.egress.siteTx := by unfold State.abandon; dsimp only; split <;> split <;> simp
@[simp] theorem State.abandon_egress_coreTx (k : Nat) (e : Entry) (h : Handover) (s : State) : (s.abandon k e h).egress.coreTx = s.egress.coreTx := by unfold State.abandon; dsimp only; split <;> split <;> simp
@[simp] theorem State.abandon_egress_reports (k : Nat) (e : Entry) (h : Handover) (s : State) : (s.abandon k e h).egress.reports = s.egress.reports := by unfold State.abandon; dsimp only; split <;> split <;> simp
@[simp] theorem State.abandon_mgmt_run (k : Nat) (e : Entry) (h : Handover) (s : State) : (s.abandon k e h).mgmt.run = s.mgmt.run := by unfold State.abandon; dsimp only; split <;> split <;> simp
@[simp] theorem State.abandon_mgmt_lock (k : Nat) (e : Entry) (h : Handover) (s : State) : (s.abandon k e h).mgmt.lock = s.mgmt.lock := by unfold State.abandon; dsimp only; split <;> split <;> simp
@[simp] theorem State.abandon_mgmt_causes (k : Nat) (e : Entry) (h : Handover) (s : State) : (s.abandon k e h).mgmt.causes = s.mgmt.causes := by unfold State.abandon; dsimp only; split <;> split <;> simp
@[simp] theorem State.abandon_mgmt_unit (k : Nat) (e : Entry) (h : Handover) (s : State) : (s.abandon k e h).mgmt.unit = s.mgmt.unit := by unfold State.abandon; dsimp only; split <;> split <;> simp
@[simp] theorem State.abandon_mgmt_inbox (k : Nat) (e : Entry) (h : Handover) (s : State) : (s.abandon k e h).mgmt.inbox = s.mgmt.inbox := by unfold State.abandon; dsimp only; split <;> split <;> simp
@[simp] theorem State.abandon_mgmt_requests (k : Nat) (e : Entry) (h : Handover) (s : State) : (s.abandon k e h).mgmt.requests = s.mgmt.requests := by unfold State.abandon; dsimp only; split <;> split <;> simp
@[simp] theorem State.abandon_mgmt_batch (k : Nat) (e : Entry) (h : Handover) (s : State) : (s.abandon k e h).mgmt.batch = s.mgmt.batch := by unfold State.abandon; dsimp only; split <;> split <;> simp
@[simp] theorem State.abandon_mgmt_flags (k : Nat) (e : Entry) (h : Handover) (s : State) : (s.abandon k e h).mgmt.flags = s.mgmt.flags := by unfold State.abandon; dsimp only; split <;> split <;> simp
@[simp] theorem State.abandon_mgmt_enables (k : Nat) (e : Entry) (h : Handover) (s : State) : (s.abandon k e h).mgmt.enables = s.mgmt.enables := by unfold State.abandon; dsimp only; split <;> split <;> simp
@[simp] theorem State.abandon_mgmt_conditions (k : Nat) (e : Entry) (h : Handover) (s : State) : (s.abandon k e h).mgmt.conditions = s.mgmt.conditions := by unfold State.abandon; dsimp only; split <;> split <;> simp

/-! #### startHandover -/

@[simp] theorem State.startHandover_pending (k : Nat) (e : Entry) (t : Nat) (o : Origin) (s : State) : ((s.startHandover k e t o).1).pending = s.pending := by
  unfold State.startHandover; dsimp only; generalize hq : s.offerControl _ _ = q
  have h : q.1.pending = s.pending := by rw [← hq]; simp
  obtain ⟨s1, v⟩ := q; cases v <;> simpa using h
@[simp] theorem State.startHandover_now (k : Nat) (e : Entry) (t : Nat) (o : Origin) (s : State) : ((s.startHandover k e t o).1).now = s.now := by
  unfold State.startHandover; dsimp only; generalize hq : s.offerControl _ _ = q
  have h : q.1.now = s.now := by rw [← hq]; simp
  obtain ⟨s1, v⟩ := q; cases v <;> simpa using h
@[simp] theorem State.startHandover_straps (k : Nat) (e : Entry) (t : Nat) (o : Origin) (s : State) : ((s.startHandover k e t o).1).straps = s.straps := by
  unfold State.startHandover; dsimp only; generalize hq : s.offerControl _ _ = q
  have h : q.1.straps = s.straps := by rw [← hq]; simp
  obtain ⟨s1, v⟩ := q; cases v <;> simpa using h
@[simp] theorem State.startHandover_classifier (k : Nat) (e : Entry) (t : Nat) (o : Origin) (s : State) : ((s.startHandover k e t o).1).classifier = s.classifier := by
  unfold State.startHandover; dsimp only; generalize hq : s.offerControl _ _ = q
  have h : q.1.classifier = s.classifier := by rw [← hq]; simp
  obtain ⟨s1, v⟩ := q; cases v <;> simpa using h
@[simp] theorem State.startHandover_monitor (k : Nat) (e : Entry) (t : Nat) (o : Origin) (s : State) : ((s.startHandover k e t o).1).monitor = s.monitor := by
  unfold State.startHandover; dsimp only; generalize hq : s.offerControl _ _ = q
  have h : q.1.monitor = s.monitor := by rw [← hq]; simp
  obtain ⟨s1, v⟩ := q; cases v <;> simpa using h
@[simp] theorem State.startHandover_vote (k : Nat) (e : Entry) (t : Nat) (o : Origin) (s : State) : ((s.startHandover k e t o).1).vote = s.vote := by
  unfold State.startHandover; dsimp only; generalize hq : s.offerControl _ _ = q
  have h : q.1.vote = s.vote := by rw [← hq]; simp
  obtain ⟨s1, v⟩ := q; cases v <;> simpa using h
@[simp] theorem State.startHandover_loc_epoch (k : Nat) (e : Entry) (t : Nat) (o : Origin) (s : State) : ((s.startHandover k e t o).1).loc.epoch = s.loc.epoch := by
  unfold State.startHandover; dsimp only; generalize hq : s.offerControl _ _ = q
  have h : q.1.loc.epoch = s.loc.epoch := by rw [← hq]; simp
  obtain ⟨s1, v⟩ := q; cases v <;> simpa using h
@[simp] theorem State.startHandover_loc_boundary (k : Nat) (e : Entry) (t : Nat) (o : Origin) (s : State) : ((s.startHandover k e t o).1).loc.boundary = s.loc.boundary := by
  unfold State.startHandover; dsimp only; generalize hq : s.offerControl _ _ = q
  have h : q.1.loc.boundary = s.loc.boundary := by rw [← hq]; simp
  obtain ⟨s1, v⟩ := q; cases v <;> simpa using h
@[simp] theorem State.startHandover_loc_policies (k : Nat) (e : Entry) (t : Nat) (o : Origin) (s : State) : ((s.startHandover k e t o).1).loc.policies = s.loc.policies := by
  unfold State.startHandover; dsimp only; generalize hq : s.offerControl _ _ = q
  have h : q.1.loc.policies = s.loc.policies := by rw [← hq]; simp
  obtain ⟨s1, v⟩ := q; cases v <;> simpa using h
@[simp] theorem State.startHandover_loc_ranges (k : Nat) (e : Entry) (t : Nat) (o : Origin) (s : State) : ((s.startHandover k e t o).1).loc.ranges = s.loc.ranges := by
  unfold State.startHandover; dsimp only; generalize hq : s.offerControl _ _ = q
  have h : q.1.loc.ranges = s.loc.ranges := by rw [← hq]; simp
  obtain ⟨s1, v⟩ := q; cases v <;> simpa using h
@[simp] theorem State.startHandover_loc_timing (k : Nat) (e : Entry) (t : Nat) (o : Origin) (s : State) : ((s.startHandover k e t o).1).loc.timing = s.loc.timing := by
  unfold State.startHandover; dsimp only; generalize hq : s.offerControl _ _ = q
  have h : q.1.loc.timing = s.loc.timing := by rw [← hq]; simp
  obtain ⟨s1, v⟩ := q; cases v <;> simpa using h
@[simp] theorem State.startHandover_loc_reports (k : Nat) (e : Entry) (t : Nat) (o : Origin) (s : State) : ((s.startHandover k e t o).1).loc.reports = s.loc.reports := by
  unfold State.startHandover; dsimp only; generalize hq : s.offerControl _ _ = q
  have h : q.1.loc.reports = s.loc.reports := by rw [← hq]; simp
  obtain ⟨s1, v⟩ := q; cases v <;> simpa using h
@[simp] theorem State.startHandover_loc_frames (k : Nat) (e : Entry) (t : Nat) (o : Origin) (s : State) : ((s.startHandover k e t o).1).loc.frames = s.loc.frames := by
  unfold State.startHandover; dsimp only; generalize hq : s.offerControl _ _ = q
  have h : q.1.loc.frames = s.loc.frames := by rw [← hq]; simp
  obtain ⟨s1, v⟩ := q; cases v <;> simpa using h
@[simp] theorem State.startHandover_reach (k : Nat) (e : Entry) (t : Nat) (o : Origin) (s : State) : ((s.startHandover k e t o).1).reach = s.reach := by
  unfold State.startHandover; dsimp only; generalize hq : s.offerControl _ _ = q
  have h : q.1.reach = s.reach := by rw [← hq]; simp
  obtain ⟨s1, v⟩ := q; cases v <;> simpa using h
@[simp] theorem State.startHandover_egress_voice (k : Nat) (e : Entry) (t : Nat) (o : Origin) (s : State) : ((s.startHandover k e t o).1).egress.voice = s.egress.voice := by
  unfold State.startHandover; dsimp only; generalize hq : s.offerControl _ _ = q
  have h : q.1.egress.voice = s.egress.voice := by rw [← hq]; simp
  obtain ⟨s1, v⟩ := q; cases v <;> simpa using h
@[simp] theorem State.startHandover_egress_core (k : Nat) (e : Entry) (t : Nat) (o : Origin) (s : State) : ((s.startHandover k e t o).1).egress.core = s.egress.core := by
  unfold State.startHandover; dsimp only; generalize hq : s.offerControl _ _ = q
  have h : q.1.egress.core = s.egress.core := by rw [← hq]; simp
  obtain ⟨s1, v⟩ := q; cases v <;> simpa using h
@[simp] theorem State.startHandover_egress_credits (k : Nat) (e : Entry) (t : Nat) (o : Origin) (s : State) : ((s.startHandover k e t o).1).egress.credits = s.egress.credits := by
  unfold State.startHandover; dsimp only; generalize hq : s.offerControl _ _ = q
  have h : q.1.egress.credits = s.egress.credits := by rw [← hq]; simp
  obtain ⟨s1, v⟩ := q; cases v <;> simpa using h
@[simp] theorem State.startHandover_egress_pointer (k : Nat) (e : Entry) (t : Nat) (o : Origin) (s : State) : ((s.startHandover k e t o).1).egress.pointer = s.egress.pointer := by
  unfold State.startHandover; dsimp only; generalize hq : s.offerControl _ _ = q
  have h : q.1.egress.pointer = s.egress.pointer := by rw [← hq]; simp
  obtain ⟨s1, v⟩ := q; cases v <;> simpa using h
@[simp] theorem State.startHandover_egress_siteTx (k : Nat) (e : Entry) (t : Nat) (o : Origin) (s : State) : ((s.startHandover k e t o).1).egress.siteTx = s.egress.siteTx := by
  unfold State.startHandover; dsimp only; generalize hq : s.offerControl _ _ = q
  have h : q.1.egress.siteTx = s.egress.siteTx := by rw [← hq]; simp
  obtain ⟨s1, v⟩ := q; cases v <;> simpa using h
@[simp] theorem State.startHandover_egress_coreTx (k : Nat) (e : Entry) (t : Nat) (o : Origin) (s : State) : ((s.startHandover k e t o).1).egress.coreTx = s.egress.coreTx := by
  unfold State.startHandover; dsimp only; generalize hq : s.offerControl _ _ = q
  have h : q.1.egress.coreTx = s.egress.coreTx := by rw [← hq]; simp
  obtain ⟨s1, v⟩ := q; cases v <;> simpa using h
@[simp] theorem State.startHandover_egress_reports (k : Nat) (e : Entry) (t : Nat) (o : Origin) (s : State) : ((s.startHandover k e t o).1).egress.reports = s.egress.reports := by
  unfold State.startHandover; dsimp only; generalize hq : s.offerControl _ _ = q
  have h : q.1.egress.reports = s.egress.reports := by rw [← hq]; simp
  obtain ⟨s1, v⟩ := q; cases v <;> simpa using h
@[simp] theorem State.startHandover_mgmt_run (k : Nat) (e : Entry) (t : Nat) (o : Origin) (s : State) : ((s.startHandover k e t o).1).mgmt.run = s.mgmt.run := by
  unfold State.startHandover; dsimp only; generalize hq : s.offerControl _ _ = q
  have h : q.1.mgmt.run = s.mgmt.run := by rw [← hq]; simp
  obtain ⟨s1, v⟩ := q; cases v <;> simpa using h
@[simp] theorem State.startHandover_mgmt_lock (k : Nat) (e : Entry) (t : Nat) (o : Origin) (s : State) : ((s.startHandover k e t o).1).mgmt.lock = s.mgmt.lock := by
  unfold State.startHandover; dsimp only; generalize hq : s.offerControl _ _ = q
  have h : q.1.mgmt.lock = s.mgmt.lock := by rw [← hq]; simp
  obtain ⟨s1, v⟩ := q; cases v <;> simpa using h
@[simp] theorem State.startHandover_mgmt_causes (k : Nat) (e : Entry) (t : Nat) (o : Origin) (s : State) : ((s.startHandover k e t o).1).mgmt.causes = s.mgmt.causes := by
  unfold State.startHandover; dsimp only; generalize hq : s.offerControl _ _ = q
  have h : q.1.mgmt.causes = s.mgmt.causes := by rw [← hq]; simp
  obtain ⟨s1, v⟩ := q; cases v <;> simpa using h
@[simp] theorem State.startHandover_mgmt_unit (k : Nat) (e : Entry) (t : Nat) (o : Origin) (s : State) : ((s.startHandover k e t o).1).mgmt.unit = s.mgmt.unit := by
  unfold State.startHandover; dsimp only; generalize hq : s.offerControl _ _ = q
  have h : q.1.mgmt.unit = s.mgmt.unit := by rw [← hq]; simp
  obtain ⟨s1, v⟩ := q; cases v <;> simpa using h
@[simp] theorem State.startHandover_mgmt_inbox (k : Nat) (e : Entry) (t : Nat) (o : Origin) (s : State) : ((s.startHandover k e t o).1).mgmt.inbox = s.mgmt.inbox := by
  unfold State.startHandover; dsimp only; generalize hq : s.offerControl _ _ = q
  have h : q.1.mgmt.inbox = s.mgmt.inbox := by rw [← hq]; simp
  obtain ⟨s1, v⟩ := q; cases v <;> simpa using h
@[simp] theorem State.startHandover_mgmt_requests (k : Nat) (e : Entry) (t : Nat) (o : Origin) (s : State) : ((s.startHandover k e t o).1).mgmt.requests = s.mgmt.requests := by
  unfold State.startHandover; dsimp only; generalize hq : s.offerControl _ _ = q
  have h : q.1.mgmt.requests = s.mgmt.requests := by rw [← hq]; simp
  obtain ⟨s1, v⟩ := q; cases v <;> simpa using h
@[simp] theorem State.startHandover_mgmt_batch (k : Nat) (e : Entry) (t : Nat) (o : Origin) (s : State) : ((s.startHandover k e t o).1).mgmt.batch = s.mgmt.batch := by
  unfold State.startHandover; dsimp only; generalize hq : s.offerControl _ _ = q
  have h : q.1.mgmt.batch = s.mgmt.batch := by rw [← hq]; simp
  obtain ⟨s1, v⟩ := q; cases v <;> simpa using h
@[simp] theorem State.startHandover_mgmt_flags (k : Nat) (e : Entry) (t : Nat) (o : Origin) (s : State) : ((s.startHandover k e t o).1).mgmt.flags = s.mgmt.flags := by
  unfold State.startHandover; dsimp only; generalize hq : s.offerControl _ _ = q
  have h : q.1.mgmt.flags = s.mgmt.flags := by rw [← hq]; simp
  obtain ⟨s1, v⟩ := q; cases v <;> simpa using h
@[simp] theorem State.startHandover_mgmt_enables (k : Nat) (e : Entry) (t : Nat) (o : Origin) (s : State) : ((s.startHandover k e t o).1).mgmt.enables = s.mgmt.enables := by
  unfold State.startHandover; dsimp only; generalize hq : s.offerControl _ _ = q
  have h : q.1.mgmt.enables = s.mgmt.enables := by rw [← hq]; simp
  obtain ⟨s1, v⟩ := q; cases v <;> simpa using h
@[simp] theorem State.startHandover_mgmt_conditions (k : Nat) (e : Entry) (t : Nat) (o : Origin) (s : State) : ((s.startHandover k e t o).1).mgmt.conditions = s.mgmt.conditions := by
  unfold State.startHandover; dsimp only; generalize hq : s.offerControl _ _ = q
  have h : q.1.mgmt.conditions = s.mgmt.conditions := by rw [← hq]; simp
  obtain ⟨s1, v⟩ := q; cases v <;> simpa using h

/-! #### leaveSites -/

@[simp] theorem State.leaveSites_pending (e : Entry) (s : State) : (s.leaveSites e).pending = s.pending := by unfold State.leaveSites; split <;> simp
@[simp] theorem State.leaveSites_now (e : Entry) (s : State) : (s.leaveSites e).now = s.now := by unfold State.leaveSites; split <;> simp
@[simp] theorem State.leaveSites_straps (e : Entry) (s : State) : (s.leaveSites e).straps = s.straps := by unfold State.leaveSites; split <;> simp
@[simp] theorem State.leaveSites_classifier (e : Entry) (s : State) : (s.leaveSites e).classifier = s.classifier := by unfold State.leaveSites; split <;> simp
@[simp] theorem State.leaveSites_monitor (e : Entry) (s : State) : (s.leaveSites e).monitor = s.monitor := by unfold State.leaveSites; split <;> simp
@[simp] theorem State.leaveSites_vote (e : Entry) (s : State) : (s.leaveSites e).vote = s.vote := by unfold State.leaveSites; split <;> simp
@[simp] theorem State.leaveSites_loc (e : Entry) (s : State) : (s.leaveSites e).loc = s.loc := by unfold State.leaveSites; split <;> simp
@[simp] theorem State.leaveSites_reach (e : Entry) (s : State) : (s.leaveSites e).reach = s.reach := by unfold State.leaveSites; split <;> simp
@[simp] theorem State.leaveSites_egress_voice (e : Entry) (s : State) : (s.leaveSites e).egress.voice = s.egress.voice := by unfold State.leaveSites; split <;> simp
@[simp] theorem State.leaveSites_egress_core (e : Entry) (s : State) : (s.leaveSites e).egress.core = s.egress.core := by unfold State.leaveSites; split <;> simp
@[simp] theorem State.leaveSites_egress_credits (e : Entry) (s : State) : (s.leaveSites e).egress.credits = s.egress.credits := by unfold State.leaveSites; split <;> simp
@[simp] theorem State.leaveSites_egress_pointer (e : Entry) (s : State) : (s.leaveSites e).egress.pointer = s.egress.pointer := by unfold State.leaveSites; split <;> simp
@[simp] theorem State.leaveSites_egress_siteTx (e : Entry) (s : State) : (s.leaveSites e).egress.siteTx = s.egress.siteTx := by unfold State.leaveSites; split <;> simp
@[simp] theorem State.leaveSites_egress_coreTx (e : Entry) (s : State) : (s.leaveSites e).egress.coreTx = s.egress.coreTx := by unfold State.leaveSites; split <;> simp
@[simp] theorem State.leaveSites_egress_reports (e : Entry) (s : State) : (s.leaveSites e).egress.reports = s.egress.reports := by unfold State.leaveSites; split <;> simp
@[simp] theorem State.leaveSites_mgmt_run (e : Entry) (s : State) : (s.leaveSites e).mgmt.run = s.mgmt.run := by unfold State.leaveSites; split <;> simp
@[simp] theorem State.leaveSites_mgmt_lock (e : Entry) (s : State) : (s.leaveSites e).mgmt.lock = s.mgmt.lock := by unfold State.leaveSites; split <;> simp
@[simp] theorem State.leaveSites_mgmt_causes (e : Entry) (s : State) : (s.leaveSites e).mgmt.causes = s.mgmt.causes := by unfold State.leaveSites; split <;> simp
@[simp] theorem State.leaveSites_mgmt_unit (e : Entry) (s : State) : (s.leaveSites e).mgmt.unit = s.mgmt.unit := by unfold State.leaveSites; split <;> simp
@[simp] theorem State.leaveSites_mgmt_inbox (e : Entry) (s : State) : (s.leaveSites e).mgmt.inbox = s.mgmt.inbox := by unfold State.leaveSites; split <;> simp
@[simp] theorem State.leaveSites_mgmt_requests (e : Entry) (s : State) : (s.leaveSites e).mgmt.requests = s.mgmt.requests := by unfold State.leaveSites; split <;> simp
@[simp] theorem State.leaveSites_mgmt_batch (e : Entry) (s : State) : (s.leaveSites e).mgmt.batch = s.mgmt.batch := by unfold State.leaveSites; split <;> simp
@[simp] theorem State.leaveSites_mgmt_flags (e : Entry) (s : State) : (s.leaveSites e).mgmt.flags = s.mgmt.flags := by unfold State.leaveSites; split <;> simp
@[simp] theorem State.leaveSites_mgmt_enables (e : Entry) (s : State) : (s.leaveSites e).mgmt.enables = s.mgmt.enables := by unfold State.leaveSites; split <;> simp
@[simp] theorem State.leaveSites_mgmt_conditions (e : Entry) (s : State) : (s.leaveSites e).mgmt.conditions = s.mgmt.conditions := by unfold State.leaveSites; split <;> simp

/-! #### putCall -/

@[simp] theorem State.putCall_pending (k : Nat) (c : CallRecord) (s : State) : (s.putCall k c).pending = s.pending := rfl
@[simp] theorem State.putCall_now (k : Nat) (c : CallRecord) (s : State) : (s.putCall k c).now = s.now := rfl
@[simp] theorem State.putCall_straps (k : Nat) (c : CallRecord) (s : State) : (s.putCall k c).straps = s.straps := rfl
@[simp] theorem State.putCall_classifier (k : Nat) (c : CallRecord) (s : State) : (s.putCall k c).classifier = s.classifier := rfl
@[simp] theorem State.putCall_monitor (k : Nat) (c : CallRecord) (s : State) : (s.putCall k c).monitor = s.monitor := rfl
@[simp] theorem State.putCall_vote_inbox (k : Nat) (c : CallRecord) (s : State) : (s.putCall k c).vote.inbox = s.vote.inbox := rfl
@[simp] theorem State.putCall_vote_stopReport (k : Nat) (c : CallRecord) (s : State) : (s.putCall k c).vote.stopReport = s.vote.stopReport := rfl
@[simp] theorem State.putCall_loc (k : Nat) (c : CallRecord) (s : State) : (s.putCall k c).loc = s.loc := rfl
@[simp] theorem State.putCall_reach (k : Nat) (c : CallRecord) (s : State) : (s.putCall k c).reach = s.reach := rfl
@[simp] theorem State.putCall_egress (k : Nat) (c : CallRecord) (s : State) : (s.putCall k c).egress = s.egress := rfl
@[simp] theorem State.putCall_mgmt (k : Nat) (c : CallRecord) (s : State) : (s.putCall k c).mgmt = s.mgmt := rfl

/-! #### freeRecord -/

@[simp] theorem State.freeRecord_pending (k : Nat) (s : State) : (s.freeRecord k).pending = s.pending := rfl
@[simp] theorem State.freeRecord_now (k : Nat) (s : State) : (s.freeRecord k).now = s.now := rfl
@[simp] theorem State.freeRecord_straps (k : Nat) (s : State) : (s.freeRecord k).straps = s.straps := rfl
@[simp] theorem State.freeRecord_classifier (k : Nat) (s : State) : (s.freeRecord k).classifier = s.classifier := rfl
@[simp] theorem State.freeRecord_monitor (k : Nat) (s : State) : (s.freeRecord k).monitor = s.monitor := rfl
@[simp] theorem State.freeRecord_vote_inbox (k : Nat) (s : State) : (s.freeRecord k).vote.inbox = s.vote.inbox := rfl
@[simp] theorem State.freeRecord_vote_stopReport (k : Nat) (s : State) : (s.freeRecord k).vote.stopReport = s.vote.stopReport := rfl
@[simp] theorem State.freeRecord_loc (k : Nat) (s : State) : (s.freeRecord k).loc = s.loc := rfl
@[simp] theorem State.freeRecord_reach (k : Nat) (s : State) : (s.freeRecord k).reach = s.reach := rfl
@[simp] theorem State.freeRecord_egress (k : Nat) (s : State) : (s.freeRecord k).egress = s.egress := rfl
@[simp] theorem State.freeRecord_mgmt (k : Nat) (s : State) : (s.freeRecord k).mgmt = s.mgmt := rfl

/-! #### closeWindow -/

@[simp] theorem State.closeWindow_pending (k : Nat) (r : CallRecord) (s : State) : (s.closeWindow k r).pending = s.pending := by unfold State.closeWindow; dsimp only; split <;> split <;> simp
@[simp] theorem State.closeWindow_now (k : Nat) (r : CallRecord) (s : State) : (s.closeWindow k r).now = s.now := by unfold State.closeWindow; dsimp only; split <;> split <;> simp
@[simp] theorem State.closeWindow_straps (k : Nat) (r : CallRecord) (s : State) : (s.closeWindow k r).straps = s.straps := by unfold State.closeWindow; dsimp only; split <;> split <;> simp
@[simp] theorem State.closeWindow_classifier (k : Nat) (r : CallRecord) (s : State) : (s.closeWindow k r).classifier = s.classifier := by unfold State.closeWindow; dsimp only; split <;> split <;> simp
@[simp] theorem State.closeWindow_monitor (k : Nat) (r : CallRecord) (s : State) : (s.closeWindow k r).monitor = s.monitor := by unfold State.closeWindow; dsimp only; split <;> split <;> simp
@[simp] theorem State.closeWindow_vote_inbox (k : Nat) (r : CallRecord) (s : State) : (s.closeWindow k r).vote.inbox = s.vote.inbox := by unfold State.closeWindow; dsimp only; split <;> split <;> simp
@[simp] theorem State.closeWindow_vote_stopReport (k : Nat) (r : CallRecord) (s : State) : (s.closeWindow k r).vote.stopReport = s.vote.stopReport := by unfold State.closeWindow; dsimp only; split <;> split <;> simp
@[simp] theorem State.closeWindow_loc (k : Nat) (r : CallRecord) (s : State) : (s.closeWindow k r).loc = s.loc := by unfold State.closeWindow; dsimp only; split <;> split <;> simp
@[simp] theorem State.closeWindow_reach (k : Nat) (r : CallRecord) (s : State) : (s.closeWindow k r).reach = s.reach := by unfold State.closeWindow; dsimp only; split <;> split <;> simp
@[simp] theorem State.closeWindow_egress_control (k : Nat) (r : CallRecord) (s : State) : (s.closeWindow k r).egress.control = s.egress.control := by unfold State.closeWindow; dsimp only; split <;> split <;> simp
@[simp] theorem State.closeWindow_egress_voice (k : Nat) (r : CallRecord) (s : State) : (s.closeWindow k r).egress.voice = s.egress.voice := by unfold State.closeWindow; dsimp only; split <;> split <;> simp
@[simp] theorem State.closeWindow_egress_credits (k : Nat) (r : CallRecord) (s : State) : (s.closeWindow k r).egress.credits = s.egress.credits := by unfold State.closeWindow; dsimp only; split <;> split <;> simp
@[simp] theorem State.closeWindow_egress_pointer (k : Nat) (r : CallRecord) (s : State) : (s.closeWindow k r).egress.pointer = s.egress.pointer := by unfold State.closeWindow; dsimp only; split <;> split <;> simp
@[simp] theorem State.closeWindow_egress_siteTx (k : Nat) (r : CallRecord) (s : State) : (s.closeWindow k r).egress.siteTx = s.egress.siteTx := by unfold State.closeWindow; dsimp only; split <;> split <;> simp
@[simp] theorem State.closeWindow_egress_coreTx (k : Nat) (r : CallRecord) (s : State) : (s.closeWindow k r).egress.coreTx = s.egress.coreTx := by unfold State.closeWindow; dsimp only; split <;> split <;> simp
@[simp] theorem State.closeWindow_egress_reports (k : Nat) (r : CallRecord) (s : State) : (s.closeWindow k r).egress.reports = s.egress.reports := by unfold State.closeWindow; dsimp only; split <;> split <;> simp
@[simp] theorem State.closeWindow_mgmt_run (k : Nat) (r : CallRecord) (s : State) : (s.closeWindow k r).mgmt.run = s.mgmt.run := by unfold State.closeWindow; dsimp only; split <;> split <;> simp
@[simp] theorem State.closeWindow_mgmt_lock (k : Nat) (r : CallRecord) (s : State) : (s.closeWindow k r).mgmt.lock = s.mgmt.lock := by unfold State.closeWindow; dsimp only; split <;> split <;> simp
@[simp] theorem State.closeWindow_mgmt_causes (k : Nat) (r : CallRecord) (s : State) : (s.closeWindow k r).mgmt.causes = s.mgmt.causes := by unfold State.closeWindow; dsimp only; split <;> split <;> simp
@[simp] theorem State.closeWindow_mgmt_unit (k : Nat) (r : CallRecord) (s : State) : (s.closeWindow k r).mgmt.unit = s.mgmt.unit := by unfold State.closeWindow; dsimp only; split <;> split <;> simp
@[simp] theorem State.closeWindow_mgmt_inbox (k : Nat) (r : CallRecord) (s : State) : (s.closeWindow k r).mgmt.inbox = s.mgmt.inbox := by unfold State.closeWindow; dsimp only; split <;> split <;> simp
@[simp] theorem State.closeWindow_mgmt_requests (k : Nat) (r : CallRecord) (s : State) : (s.closeWindow k r).mgmt.requests = s.mgmt.requests := by unfold State.closeWindow; dsimp only; split <;> split <;> simp
@[simp] theorem State.closeWindow_mgmt_batch (k : Nat) (r : CallRecord) (s : State) : (s.closeWindow k r).mgmt.batch = s.mgmt.batch := by unfold State.closeWindow; dsimp only; split <;> split <;> simp
@[simp] theorem State.closeWindow_mgmt_flags (k : Nat) (r : CallRecord) (s : State) : (s.closeWindow k r).mgmt.flags = s.mgmt.flags := by unfold State.closeWindow; dsimp only; split <;> split <;> simp
@[simp] theorem State.closeWindow_mgmt_enables (k : Nat) (r : CallRecord) (s : State) : (s.closeWindow k r).mgmt.enables = s.mgmt.enables := by unfold State.closeWindow; dsimp only; split <;> split <;> simp
@[simp] theorem State.closeWindow_mgmt_conditions (k : Nat) (r : CallRecord) (s : State) : (s.closeWindow k r).mgmt.conditions = s.mgmt.conditions := by unfold State.closeWindow; dsimp only; split <;> split <;> simp

/-! #### startWindow -/

@[simp] theorem State.startWindow_pending (k : Nat) (r : CallRecord) (s : State) : (s.startWindow k r).pending = s.pending := by unfold State.startWindow; split <;> simp
@[simp] theorem State.startWindow_now (k : Nat) (r : CallRecord) (s : State) : (s.startWindow k r).now = s.now := by unfold State.startWindow; split <;> simp
@[simp] theorem State.startWindow_straps (k : Nat) (r : CallRecord) (s : State) : (s.startWindow k r).straps = s.straps := by unfold State.startWindow; split <;> simp
@[simp] theorem State.startWindow_classifier (k : Nat) (r : CallRecord) (s : State) : (s.startWindow k r).classifier = s.classifier := by unfold State.startWindow; split <;> simp
@[simp] theorem State.startWindow_monitor (k : Nat) (r : CallRecord) (s : State) : (s.startWindow k r).monitor = s.monitor := by unfold State.startWindow; split <;> simp
@[simp] theorem State.startWindow_vote_inbox (k : Nat) (r : CallRecord) (s : State) : (s.startWindow k r).vote.inbox = s.vote.inbox := by unfold State.startWindow; split <;> simp
@[simp] theorem State.startWindow_vote_stopReport (k : Nat) (r : CallRecord) (s : State) : (s.startWindow k r).vote.stopReport = s.vote.stopReport := by unfold State.startWindow; split <;> simp
@[simp] theorem State.startWindow_loc (k : Nat) (r : CallRecord) (s : State) : (s.startWindow k r).loc = s.loc := by unfold State.startWindow; split <;> simp
@[simp] theorem State.startWindow_reach (k : Nat) (r : CallRecord) (s : State) : (s.startWindow k r).reach = s.reach := by unfold State.startWindow; split <;> simp
@[simp] theorem State.startWindow_egress_control (k : Nat) (r : CallRecord) (s : State) : (s.startWindow k r).egress.control = s.egress.control := by unfold State.startWindow; split <;> simp
@[simp] theorem State.startWindow_egress_voice (k : Nat) (r : CallRecord) (s : State) : (s.startWindow k r).egress.voice = s.egress.voice := by unfold State.startWindow; split <;> simp
@[simp] theorem State.startWindow_egress_credits (k : Nat) (r : CallRecord) (s : State) : (s.startWindow k r).egress.credits = s.egress.credits := by unfold State.startWindow; split <;> simp
@[simp] theorem State.startWindow_egress_pointer (k : Nat) (r : CallRecord) (s : State) : (s.startWindow k r).egress.pointer = s.egress.pointer := by unfold State.startWindow; split <;> simp
@[simp] theorem State.startWindow_egress_siteTx (k : Nat) (r : CallRecord) (s : State) : (s.startWindow k r).egress.siteTx = s.egress.siteTx := by unfold State.startWindow; split <;> simp
@[simp] theorem State.startWindow_egress_coreTx (k : Nat) (r : CallRecord) (s : State) : (s.startWindow k r).egress.coreTx = s.egress.coreTx := by unfold State.startWindow; split <;> simp
@[simp] theorem State.startWindow_egress_reports (k : Nat) (r : CallRecord) (s : State) : (s.startWindow k r).egress.reports = s.egress.reports := by unfold State.startWindow; split <;> simp
@[simp] theorem State.startWindow_mgmt_run (k : Nat) (r : CallRecord) (s : State) : (s.startWindow k r).mgmt.run = s.mgmt.run := by unfold State.startWindow; split <;> simp
@[simp] theorem State.startWindow_mgmt_lock (k : Nat) (r : CallRecord) (s : State) : (s.startWindow k r).mgmt.lock = s.mgmt.lock := by unfold State.startWindow; split <;> simp
@[simp] theorem State.startWindow_mgmt_causes (k : Nat) (r : CallRecord) (s : State) : (s.startWindow k r).mgmt.causes = s.mgmt.causes := by unfold State.startWindow; split <;> simp
@[simp] theorem State.startWindow_mgmt_unit (k : Nat) (r : CallRecord) (s : State) : (s.startWindow k r).mgmt.unit = s.mgmt.unit := by unfold State.startWindow; split <;> simp
@[simp] theorem State.startWindow_mgmt_inbox (k : Nat) (r : CallRecord) (s : State) : (s.startWindow k r).mgmt.inbox = s.mgmt.inbox := by unfold State.startWindow; split <;> simp
@[simp] theorem State.startWindow_mgmt_requests (k : Nat) (r : CallRecord) (s : State) : (s.startWindow k r).mgmt.requests = s.mgmt.requests := by unfold State.startWindow; split <;> simp
@[simp] theorem State.startWindow_mgmt_batch (k : Nat) (r : CallRecord) (s : State) : (s.startWindow k r).mgmt.batch = s.mgmt.batch := by unfold State.startWindow; split <;> simp
@[simp] theorem State.startWindow_mgmt_flags (k : Nat) (r : CallRecord) (s : State) : (s.startWindow k r).mgmt.flags = s.mgmt.flags := by unfold State.startWindow; split <;> simp
@[simp] theorem State.startWindow_mgmt_enables (k : Nat) (r : CallRecord) (s : State) : (s.startWindow k r).mgmt.enables = s.mgmt.enables := by unfold State.startWindow; split <;> simp
@[simp] theorem State.startWindow_mgmt_conditions (k : Nat) (r : CallRecord) (s : State) : (s.startWindow k r).mgmt.conditions = s.mgmt.conditions := by unfold State.startWindow; split <;> simp

/-! #### passThrough -/

@[simp] theorem State.passThrough_pending (c : Copy) (a : Option Nat) (s : State) : (s.passThrough c a).pending = s.pending := by unfold State.passThrough; split <;> simp
@[simp] theorem State.passThrough_now (c : Copy) (a : Option Nat) (s : State) : (s.passThrough c a).now = s.now := by unfold State.passThrough; split <;> simp
@[simp] theorem State.passThrough_straps (c : Copy) (a : Option Nat) (s : State) : (s.passThrough c a).straps = s.straps := by unfold State.passThrough; split <;> simp
@[simp] theorem State.passThrough_classifier (c : Copy) (a : Option Nat) (s : State) : (s.passThrough c a).classifier = s.classifier := by unfold State.passThrough; split <;> simp
@[simp] theorem State.passThrough_monitor (c : Copy) (a : Option Nat) (s : State) : (s.passThrough c a).monitor = s.monitor := by unfold State.passThrough; split <;> simp
@[simp] theorem State.passThrough_vote (c : Copy) (a : Option Nat) (s : State) : (s.passThrough c a).vote = s.vote := by unfold State.passThrough; split <;> simp
@[simp] theorem State.passThrough_loc (c : Copy) (a : Option Nat) (s : State) : (s.passThrough c a).loc = s.loc := by unfold State.passThrough; split <;> simp
@[simp] theorem State.passThrough_reach (c : Copy) (a : Option Nat) (s : State) : (s.passThrough c a).reach = s.reach := by unfold State.passThrough; split <;> simp
@[simp] theorem State.passThrough_egress_control (c : Copy) (a : Option Nat) (s : State) : (s.passThrough c a).egress.control = s.egress.control := by unfold State.passThrough; split <;> simp
@[simp] theorem State.passThrough_egress_voice (c : Copy) (a : Option Nat) (s : State) : (s.passThrough c a).egress.voice = s.egress.voice := by unfold State.passThrough; split <;> simp
@[simp] theorem State.passThrough_egress_credits (c : Copy) (a : Option Nat) (s : State) : (s.passThrough c a).egress.credits = s.egress.credits := by unfold State.passThrough; split <;> simp
@[simp] theorem State.passThrough_egress_pointer (c : Copy) (a : Option Nat) (s : State) : (s.passThrough c a).egress.pointer = s.egress.pointer := by unfold State.passThrough; split <;> simp
@[simp] theorem State.passThrough_egress_siteTx (c : Copy) (a : Option Nat) (s : State) : (s.passThrough c a).egress.siteTx = s.egress.siteTx := by unfold State.passThrough; split <;> simp
@[simp] theorem State.passThrough_egress_coreTx (c : Copy) (a : Option Nat) (s : State) : (s.passThrough c a).egress.coreTx = s.egress.coreTx := by unfold State.passThrough; split <;> simp
@[simp] theorem State.passThrough_egress_reports (c : Copy) (a : Option Nat) (s : State) : (s.passThrough c a).egress.reports = s.egress.reports := by unfold State.passThrough; split <;> simp
@[simp] theorem State.passThrough_mgmt_run (c : Copy) (a : Option Nat) (s : State) : (s.passThrough c a).mgmt.run = s.mgmt.run := by unfold State.passThrough; split <;> simp
@[simp] theorem State.passThrough_mgmt_lock (c : Copy) (a : Option Nat) (s : State) : (s.passThrough c a).mgmt.lock = s.mgmt.lock := by unfold State.passThrough; split <;> simp
@[simp] theorem State.passThrough_mgmt_causes (c : Copy) (a : Option Nat) (s : State) : (s.passThrough c a).mgmt.causes = s.mgmt.causes := by unfold State.passThrough; split <;> simp
@[simp] theorem State.passThrough_mgmt_unit (c : Copy) (a : Option Nat) (s : State) : (s.passThrough c a).mgmt.unit = s.mgmt.unit := by unfold State.passThrough; split <;> simp
@[simp] theorem State.passThrough_mgmt_inbox (c : Copy) (a : Option Nat) (s : State) : (s.passThrough c a).mgmt.inbox = s.mgmt.inbox := by unfold State.passThrough; split <;> simp
@[simp] theorem State.passThrough_mgmt_requests (c : Copy) (a : Option Nat) (s : State) : (s.passThrough c a).mgmt.requests = s.mgmt.requests := by unfold State.passThrough; split <;> simp
@[simp] theorem State.passThrough_mgmt_batch (c : Copy) (a : Option Nat) (s : State) : (s.passThrough c a).mgmt.batch = s.mgmt.batch := by unfold State.passThrough; split <;> simp
@[simp] theorem State.passThrough_mgmt_flags (c : Copy) (a : Option Nat) (s : State) : (s.passThrough c a).mgmt.flags = s.mgmt.flags := by unfold State.passThrough; split <;> simp
@[simp] theorem State.passThrough_mgmt_enables (c : Copy) (a : Option Nat) (s : State) : (s.passThrough c a).mgmt.enables = s.mgmt.enables := by unfold State.passThrough; split <;> simp
@[simp] theorem State.passThrough_mgmt_conditions (c : Copy) (a : Option Nat) (s : State) : (s.passThrough c a).mgmt.conditions = s.mgmt.conditions := by unfold State.passThrough; split <;> simp

/-! #### putCredits -/

@[simp] theorem State.putCredits_pending (x n : Nat) (s : State) : (s.putCredits x n).pending = s.pending := rfl
@[simp] theorem State.putCredits_now (x n : Nat) (s : State) : (s.putCredits x n).now = s.now := rfl
@[simp] theorem State.putCredits_straps (x n : Nat) (s : State) : (s.putCredits x n).straps = s.straps := rfl
@[simp] theorem State.putCredits_classifier (x n : Nat) (s : State) : (s.putCredits x n).classifier = s.classifier := rfl
@[simp] theorem State.putCredits_monitor (x n : Nat) (s : State) : (s.putCredits x n).monitor = s.monitor := rfl
@[simp] theorem State.putCredits_vote (x n : Nat) (s : State) : (s.putCredits x n).vote = s.vote := rfl
@[simp] theorem State.putCredits_loc (x n : Nat) (s : State) : (s.putCredits x n).loc = s.loc := rfl
@[simp] theorem State.putCredits_reach (x n : Nat) (s : State) : (s.putCredits x n).reach = s.reach := rfl
@[simp] theorem State.putCredits_egress_control (x n : Nat) (s : State) : (s.putCredits x n).egress.control = s.egress.control := rfl
@[simp] theorem State.putCredits_egress_voice (x n : Nat) (s : State) : (s.putCredits x n).egress.voice = s.egress.voice := rfl
@[simp] theorem State.putCredits_egress_core (x n : Nat) (s : State) : (s.putCredits x n).egress.core = s.egress.core := rfl
@[simp] theorem State.putCredits_egress_poolUsed (x n : Nat) (s : State) : (s.putCredits x n).egress.poolUsed = s.egress.poolUsed := rfl
@[simp] theorem State.putCredits_egress_pointer (x n : Nat) (s : State) : (s.putCredits x n).egress.pointer = s.egress.pointer := rfl
@[simp] theorem State.putCredits_egress_siteTx (x n : Nat) (s : State) : (s.putCredits x n).egress.siteTx = s.egress.siteTx := rfl
@[simp] theorem State.putCredits_egress_coreTx (x n : Nat) (s : State) : (s.putCredits x n).egress.coreTx = s.egress.coreTx := rfl
@[simp] theorem State.putCredits_egress_reports (x n : Nat) (s : State) : (s.putCredits x n).egress.reports = s.egress.reports := rfl
@[simp] theorem State.putCredits_mgmt (x n : Nat) (s : State) : (s.putCredits x n).mgmt = s.mgmt := rfl

/-! #### returnCredits -/

@[simp] theorem State.returnCredits_pending (x n : Nat) (s : State) : (s.returnCredits x n).pending = s.pending := rfl
@[simp] theorem State.returnCredits_now (x n : Nat) (s : State) : (s.returnCredits x n).now = s.now := rfl
@[simp] theorem State.returnCredits_straps (x n : Nat) (s : State) : (s.returnCredits x n).straps = s.straps := rfl
@[simp] theorem State.returnCredits_classifier (x n : Nat) (s : State) : (s.returnCredits x n).classifier = s.classifier := rfl
@[simp] theorem State.returnCredits_monitor (x n : Nat) (s : State) : (s.returnCredits x n).monitor = s.monitor := rfl
@[simp] theorem State.returnCredits_vote (x n : Nat) (s : State) : (s.returnCredits x n).vote = s.vote := rfl
@[simp] theorem State.returnCredits_loc (x n : Nat) (s : State) : (s.returnCredits x n).loc = s.loc := rfl
@[simp] theorem State.returnCredits_reach (x n : Nat) (s : State) : (s.returnCredits x n).reach = s.reach := rfl
@[simp] theorem State.returnCredits_egress_control (x n : Nat) (s : State) : (s.returnCredits x n).egress.control = s.egress.control := rfl
@[simp] theorem State.returnCredits_egress_voice (x n : Nat) (s : State) : (s.returnCredits x n).egress.voice = s.egress.voice := rfl
@[simp] theorem State.returnCredits_egress_core (x n : Nat) (s : State) : (s.returnCredits x n).egress.core = s.egress.core := rfl
@[simp] theorem State.returnCredits_egress_poolUsed (x n : Nat) (s : State) : (s.returnCredits x n).egress.poolUsed = s.egress.poolUsed := rfl
@[simp] theorem State.returnCredits_egress_pointer (x n : Nat) (s : State) : (s.returnCredits x n).egress.pointer = s.egress.pointer := rfl
@[simp] theorem State.returnCredits_egress_siteTx (x n : Nat) (s : State) : (s.returnCredits x n).egress.siteTx = s.egress.siteTx := rfl
@[simp] theorem State.returnCredits_egress_coreTx (x n : Nat) (s : State) : (s.returnCredits x n).egress.coreTx = s.egress.coreTx := rfl
@[simp] theorem State.returnCredits_egress_reports (x n : Nat) (s : State) : (s.returnCredits x n).egress.reports = s.egress.reports := rfl
@[simp] theorem State.returnCredits_mgmt (x n : Nat) (s : State) : (s.returnCredits x n).mgmt = s.mgmt := rfl

/-! #### reportUp -/

@[simp] theorem State.reportUp_pending (x : Nat) (s : State) : (s.reportUp x).pending = s.pending := rfl
@[simp] theorem State.reportUp_now (x : Nat) (s : State) : (s.reportUp x).now = s.now := rfl
@[simp] theorem State.reportUp_straps (x : Nat) (s : State) : (s.reportUp x).straps = s.straps := rfl
@[simp] theorem State.reportUp_classifier (x : Nat) (s : State) : (s.reportUp x).classifier = s.classifier := rfl
@[simp] theorem State.reportUp_monitor (x : Nat) (s : State) : (s.reportUp x).monitor = s.monitor := rfl
@[simp] theorem State.reportUp_vote (x : Nat) (s : State) : (s.reportUp x).vote = s.vote := rfl
@[simp] theorem State.reportUp_loc (x : Nat) (s : State) : (s.reportUp x).loc = s.loc := rfl
@[simp] theorem State.reportUp_reach_rows (x : Nat) (s : State) : (s.reportUp x).reach.rows = s.reach.rows := rfl
@[simp] theorem State.reportUp_reach_floodOverride (x : Nat) (s : State) : (s.reportUp x).reach.floodOverride = s.reach.floodOverride := rfl
@[simp] theorem State.reportUp_reach_inbox (x : Nat) (s : State) : (s.reportUp x).reach.inbox = s.reach.inbox := rfl
@[simp] theorem State.reportUp_egress_control (x : Nat) (s : State) : (s.reportUp x).egress.control = s.egress.control := rfl
@[simp] theorem State.reportUp_egress_voice (x : Nat) (s : State) : (s.reportUp x).egress.voice = s.egress.voice := rfl
@[simp] theorem State.reportUp_egress_core (x : Nat) (s : State) : (s.reportUp x).egress.core = s.egress.core := rfl
@[simp] theorem State.reportUp_egress_poolUsed (x : Nat) (s : State) : (s.reportUp x).egress.poolUsed = s.egress.poolUsed := rfl
@[simp] theorem State.reportUp_egress_credits (x : Nat) (s : State) : (s.reportUp x).egress.credits = s.egress.credits := rfl
@[simp] theorem State.reportUp_egress_pointer (x : Nat) (s : State) : (s.reportUp x).egress.pointer = s.egress.pointer := rfl
@[simp] theorem State.reportUp_egress_siteTx (x : Nat) (s : State) : (s.reportUp x).egress.siteTx = s.egress.siteTx := rfl
@[simp] theorem State.reportUp_egress_coreTx (x : Nat) (s : State) : (s.reportUp x).egress.coreTx = s.egress.coreTx := rfl
@[simp] theorem State.reportUp_mgmt (x : Nat) (s : State) : (s.reportUp x).mgmt = s.mgmt := rfl

/-! #### reportLeftReach -/

@[simp] theorem State.reportLeftReach_pending (x : Nat) (s : State) : (s.reportLeftReach x).pending = s.pending := rfl
@[simp] theorem State.reportLeftReach_now (x : Nat) (s : State) : (s.reportLeftReach x).now = s.now := rfl
@[simp] theorem State.reportLeftReach_straps (x : Nat) (s : State) : (s.reportLeftReach x).straps = s.straps := rfl
@[simp] theorem State.reportLeftReach_classifier (x : Nat) (s : State) : (s.reportLeftReach x).classifier = s.classifier := rfl
@[simp] theorem State.reportLeftReach_monitor (x : Nat) (s : State) : (s.reportLeftReach x).monitor = s.monitor := rfl
@[simp] theorem State.reportLeftReach_vote (x : Nat) (s : State) : (s.reportLeftReach x).vote = s.vote := rfl
@[simp] theorem State.reportLeftReach_loc (x : Nat) (s : State) : (s.reportLeftReach x).loc = s.loc := rfl
@[simp] theorem State.reportLeftReach_reach_rows (x : Nat) (s : State) : (s.reportLeftReach x).reach.rows = s.reach.rows := rfl
@[simp] theorem State.reportLeftReach_reach_floodOverride (x : Nat) (s : State) : (s.reportLeftReach x).reach.floodOverride = s.reach.floodOverride := rfl
@[simp] theorem State.reportLeftReach_reach_inbox (x : Nat) (s : State) : (s.reportLeftReach x).reach.inbox = s.reach.inbox := rfl
@[simp] theorem State.reportLeftReach_egress (x : Nat) (s : State) : (s.reportLeftReach x).egress = s.egress := rfl
@[simp] theorem State.reportLeftReach_mgmt (x : Nat) (s : State) : (s.reportLeftReach x).mgmt = s.mgmt := rfl

/-! #### orderFlush -/

@[simp] theorem State.orderFlush_pending (x : Nat) (s : State) : (s.orderFlush x).pending = s.pending := rfl
@[simp] theorem State.orderFlush_now (x : Nat) (s : State) : (s.orderFlush x).now = s.now := rfl
@[simp] theorem State.orderFlush_straps (x : Nat) (s : State) : (s.orderFlush x).straps = s.straps := rfl
@[simp] theorem State.orderFlush_classifier (x : Nat) (s : State) : (s.orderFlush x).classifier = s.classifier := rfl
@[simp] theorem State.orderFlush_monitor (x : Nat) (s : State) : (s.orderFlush x).monitor = s.monitor := rfl
@[simp] theorem State.orderFlush_vote (x : Nat) (s : State) : (s.orderFlush x).vote = s.vote := rfl
@[simp] theorem State.orderFlush_loc (x : Nat) (s : State) : (s.orderFlush x).loc = s.loc := rfl
@[simp] theorem State.orderFlush_reach (x : Nat) (s : State) : (s.orderFlush x).reach = s.reach := rfl
@[simp] theorem State.orderFlush_egress_control (x : Nat) (s : State) : (s.orderFlush x).egress.control = s.egress.control := rfl
@[simp] theorem State.orderFlush_egress_voice (x : Nat) (s : State) : (s.orderFlush x).egress.voice = s.egress.voice := rfl
@[simp] theorem State.orderFlush_egress_core (x : Nat) (s : State) : (s.orderFlush x).egress.core = s.egress.core := rfl
@[simp] theorem State.orderFlush_egress_poolUsed (x : Nat) (s : State) : (s.orderFlush x).egress.poolUsed = s.egress.poolUsed := rfl
@[simp] theorem State.orderFlush_egress_credits (x : Nat) (s : State) : (s.orderFlush x).egress.credits = s.egress.credits := rfl
@[simp] theorem State.orderFlush_egress_pointer (x : Nat) (s : State) : (s.orderFlush x).egress.pointer = s.egress.pointer := rfl
@[simp] theorem State.orderFlush_egress_siteTx (x : Nat) (s : State) : (s.orderFlush x).egress.siteTx = s.egress.siteTx := rfl
@[simp] theorem State.orderFlush_egress_coreTx (x : Nat) (s : State) : (s.orderFlush x).egress.coreTx = s.egress.coreTx := rfl
@[simp] theorem State.orderFlush_mgmt (x : Nat) (s : State) : (s.orderFlush x).mgmt = s.mgmt := rfl

/-! #### reportEntries -/

@[simp] theorem State.reportEntries_pending (x : Nat) (n : SiteNews) (s : State) : (s.reportEntries x n).pending = s.pending := rfl
@[simp] theorem State.reportEntries_now (x : Nat) (n : SiteNews) (s : State) : (s.reportEntries x n).now = s.now := rfl
@[simp] theorem State.reportEntries_straps (x : Nat) (n : SiteNews) (s : State) : (s.reportEntries x n).straps = s.straps := rfl
@[simp] theorem State.reportEntries_classifier (x : Nat) (n : SiteNews) (s : State) : (s.reportEntries x n).classifier = s.classifier := rfl
@[simp] theorem State.reportEntries_monitor (x : Nat) (n : SiteNews) (s : State) : (s.reportEntries x n).monitor = s.monitor := rfl
@[simp] theorem State.reportEntries_vote (x : Nat) (n : SiteNews) (s : State) : (s.reportEntries x n).vote = s.vote := rfl
@[simp] theorem State.reportEntries_loc_entries (x : Nat) (n : SiteNews) (s : State) : (s.reportEntries x n).loc.entries = s.loc.entries := rfl
@[simp] theorem State.reportEntries_loc_loads (x : Nat) (n : SiteNews) (s : State) : (s.reportEntries x n).loc.loads = s.loc.loads := rfl
@[simp] theorem State.reportEntries_loc_members (x : Nat) (n : SiteNews) (s : State) : (s.reportEntries x n).loc.members = s.loc.members := rfl
@[simp] theorem State.reportEntries_loc_emergencies (x : Nat) (n : SiteNews) (s : State) : (s.reportEntries x n).loc.emergencies = s.loc.emergencies := rfl
@[simp] theorem State.reportEntries_loc_epoch (x : Nat) (n : SiteNews) (s : State) : (s.reportEntries x n).loc.epoch = s.loc.epoch := rfl
@[simp] theorem State.reportEntries_loc_boundary (x : Nat) (n : SiteNews) (s : State) : (s.reportEntries x n).loc.boundary = s.loc.boundary := rfl
@[simp] theorem State.reportEntries_loc_visits (x : Nat) (n : SiteNews) (s : State) : (s.reportEntries x n).loc.visits = s.loc.visits := rfl
@[simp] theorem State.reportEntries_loc_policies (x : Nat) (n : SiteNews) (s : State) : (s.reportEntries x n).loc.policies = s.loc.policies := rfl
@[simp] theorem State.reportEntries_loc_ranges (x : Nat) (n : SiteNews) (s : State) : (s.reportEntries x n).loc.ranges = s.loc.ranges := rfl
@[simp] theorem State.reportEntries_loc_timing (x : Nat) (n : SiteNews) (s : State) : (s.reportEntries x n).loc.timing = s.loc.timing := rfl
@[simp] theorem State.reportEntries_loc_reports (x : Nat) (n : SiteNews) (s : State) : (s.reportEntries x n).loc.reports = s.loc.reports := rfl
@[simp] theorem State.reportEntries_loc_frames (x : Nat) (n : SiteNews) (s : State) : (s.reportEntries x n).loc.frames = s.loc.frames := rfl
@[simp] theorem State.reportEntries_loc_stopReports (x : Nat) (n : SiteNews) (s : State) : (s.reportEntries x n).loc.stopReports = s.loc.stopReports := rfl
@[simp] theorem State.reportEntries_reach (x : Nat) (n : SiteNews) (s : State) : (s.reportEntries x n).reach = s.reach := rfl
@[simp] theorem State.reportEntries_egress (x : Nat) (n : SiteNews) (s : State) : (s.reportEntries x n).egress = s.egress := rfl
@[simp] theorem State.reportEntries_mgmt (x : Nat) (n : SiteNews) (s : State) : (s.reportEntries x n).mgmt = s.mgmt := rfl

/-! #### takeEntryReport -/

@[simp] theorem State.takeEntryReport_pending (r : EntryReport) (s : State) : (s.takeEntryReport r).pending = s.pending := rfl
@[simp] theorem State.takeEntryReport_now (r : EntryReport) (s : State) : (s.takeEntryReport r).now = s.now := rfl
@[simp] theorem State.takeEntryReport_straps (r : EntryReport) (s : State) : (s.takeEntryReport r).straps = s.straps := rfl
@[simp] theorem State.takeEntryReport_classifier (r : EntryReport) (s : State) : (s.takeEntryReport r).classifier = s.classifier := rfl
@[simp] theorem State.takeEntryReport_monitor (r : EntryReport) (s : State) : (s.takeEntryReport r).monitor = s.monitor := rfl
@[simp] theorem State.takeEntryReport_vote (r : EntryReport) (s : State) : (s.takeEntryReport r).vote = s.vote := rfl
@[simp] theorem State.takeEntryReport_loc_entries (r : EntryReport) (s : State) : (s.takeEntryReport r).loc.entries = s.loc.entries := rfl
@[simp] theorem State.takeEntryReport_loc_loads (r : EntryReport) (s : State) : (s.takeEntryReport r).loc.loads = s.loc.loads := rfl
@[simp] theorem State.takeEntryReport_loc_members (r : EntryReport) (s : State) : (s.takeEntryReport r).loc.members = s.loc.members := rfl
@[simp] theorem State.takeEntryReport_loc_emergencies (r : EntryReport) (s : State) : (s.takeEntryReport r).loc.emergencies = s.loc.emergencies := rfl
@[simp] theorem State.takeEntryReport_loc_epoch (r : EntryReport) (s : State) : (s.takeEntryReport r).loc.epoch = s.loc.epoch := rfl
@[simp] theorem State.takeEntryReport_loc_boundary (r : EntryReport) (s : State) : (s.takeEntryReport r).loc.boundary = s.loc.boundary := rfl
@[simp] theorem State.takeEntryReport_loc_visits (r : EntryReport) (s : State) : (s.takeEntryReport r).loc.visits = s.loc.visits := rfl
@[simp] theorem State.takeEntryReport_loc_policies (r : EntryReport) (s : State) : (s.takeEntryReport r).loc.policies = s.loc.policies := rfl
@[simp] theorem State.takeEntryReport_loc_ranges (r : EntryReport) (s : State) : (s.takeEntryReport r).loc.ranges = s.loc.ranges := rfl
@[simp] theorem State.takeEntryReport_loc_timing (r : EntryReport) (s : State) : (s.takeEntryReport r).loc.timing = s.loc.timing := rfl
@[simp] theorem State.takeEntryReport_loc_reports (r : EntryReport) (s : State) : (s.takeEntryReport r).loc.reports = s.loc.reports := rfl
@[simp] theorem State.takeEntryReport_loc_frames (r : EntryReport) (s : State) : (s.takeEntryReport r).loc.frames = s.loc.frames := rfl
@[simp] theorem State.takeEntryReport_loc_stopReports (r : EntryReport) (s : State) : (s.takeEntryReport r).loc.stopReports = s.loc.stopReports := rfl
@[simp] theorem State.takeEntryReport_reach (r : EntryReport) (s : State) : (s.takeEntryReport r).reach = s.reach := rfl
@[simp] theorem State.takeEntryReport_egress (r : EntryReport) (s : State) : (s.takeEntryReport r).egress = s.egress := rfl
@[simp] theorem State.takeEntryReport_mgmt (r : EntryReport) (s : State) : (s.takeEntryReport r).mgmt = s.mgmt := rfl

/-! #### takeEgressReport -/

@[simp] theorem State.takeEgressReport_pending (r : EgressReport) (s : State) : (s.takeEgressReport r).pending = s.pending := rfl
@[simp] theorem State.takeEgressReport_now (r : EgressReport) (s : State) : (s.takeEgressReport r).now = s.now := rfl
@[simp] theorem State.takeEgressReport_straps (r : EgressReport) (s : State) : (s.takeEgressReport r).straps = s.straps := rfl
@[simp] theorem State.takeEgressReport_classifier (r : EgressReport) (s : State) : (s.takeEgressReport r).classifier = s.classifier := rfl
@[simp] theorem State.takeEgressReport_monitor (r : EgressReport) (s : State) : (s.takeEgressReport r).monitor = s.monitor := rfl
@[simp] theorem State.takeEgressReport_vote (r : EgressReport) (s : State) : (s.takeEgressReport r).vote = s.vote := rfl
@[simp] theorem State.takeEgressReport_loc (r : EgressReport) (s : State) : (s.takeEgressReport r).loc = s.loc := rfl
@[simp] theorem State.takeEgressReport_reach (r : EgressReport) (s : State) : (s.takeEgressReport r).reach = s.reach := rfl
@[simp] theorem State.takeEgressReport_egress_control (r : EgressReport) (s : State) : (s.takeEgressReport r).egress.control = s.egress.control := rfl
@[simp] theorem State.takeEgressReport_egress_voice (r : EgressReport) (s : State) : (s.takeEgressReport r).egress.voice = s.egress.voice := rfl
@[simp] theorem State.takeEgressReport_egress_core (r : EgressReport) (s : State) : (s.takeEgressReport r).egress.core = s.egress.core := rfl
@[simp] theorem State.takeEgressReport_egress_poolUsed (r : EgressReport) (s : State) : (s.takeEgressReport r).egress.poolUsed = s.egress.poolUsed := rfl
@[simp] theorem State.takeEgressReport_egress_credits (r : EgressReport) (s : State) : (s.takeEgressReport r).egress.credits = s.egress.credits := rfl
@[simp] theorem State.takeEgressReport_egress_pointer (r : EgressReport) (s : State) : (s.takeEgressReport r).egress.pointer = s.egress.pointer := rfl
@[simp] theorem State.takeEgressReport_egress_siteTx (r : EgressReport) (s : State) : (s.takeEgressReport r).egress.siteTx = s.egress.siteTx := rfl
@[simp] theorem State.takeEgressReport_egress_coreTx (r : EgressReport) (s : State) : (s.takeEgressReport r).egress.coreTx = s.egress.coreTx := rfl
@[simp] theorem State.takeEgressReport_mgmt (r : EgressReport) (s : State) : (s.takeEgressReport r).mgmt = s.mgmt := rfl

/-! #### flushLanes -/

@[simp] theorem State.flushLanes_pending (x : Nat) (s : State) : (s.flushLanes x).pending = s.pending := rfl
@[simp] theorem State.flushLanes_now (x : Nat) (s : State) : (s.flushLanes x).now = s.now := rfl
@[simp] theorem State.flushLanes_straps (x : Nat) (s : State) : (s.flushLanes x).straps = s.straps := rfl
@[simp] theorem State.flushLanes_classifier (x : Nat) (s : State) : (s.flushLanes x).classifier = s.classifier := rfl
@[simp] theorem State.flushLanes_monitor (x : Nat) (s : State) : (s.flushLanes x).monitor = s.monitor := rfl
@[simp] theorem State.flushLanes_vote (x : Nat) (s : State) : (s.flushLanes x).vote = s.vote := rfl
@[simp] theorem State.flushLanes_loc (x : Nat) (s : State) : (s.flushLanes x).loc = s.loc := rfl
@[simp] theorem State.flushLanes_reach (x : Nat) (s : State) : (s.flushLanes x).reach = s.reach := rfl
@[simp] theorem State.flushLanes_egress_core (x : Nat) (s : State) : (s.flushLanes x).egress.core = s.egress.core := rfl
@[simp] theorem State.flushLanes_egress_credits (x : Nat) (s : State) : (s.flushLanes x).egress.credits = s.egress.credits := rfl
@[simp] theorem State.flushLanes_egress_pointer (x : Nat) (s : State) : (s.flushLanes x).egress.pointer = s.egress.pointer := rfl
@[simp] theorem State.flushLanes_egress_siteTx (x : Nat) (s : State) : (s.flushLanes x).egress.siteTx = s.egress.siteTx := rfl
@[simp] theorem State.flushLanes_egress_coreTx (x : Nat) (s : State) : (s.flushLanes x).egress.coreTx = s.egress.coreTx := rfl
@[simp] theorem State.flushLanes_egress_reports (x : Nat) (s : State) : (s.flushLanes x).egress.reports = s.egress.reports := rfl
@[simp] theorem State.flushLanes_mgmt_run (x : Nat) (s : State) : (s.flushLanes x).mgmt.run = s.mgmt.run := rfl
@[simp] theorem State.flushLanes_mgmt_lock (x : Nat) (s : State) : (s.flushLanes x).mgmt.lock = s.mgmt.lock := rfl
@[simp] theorem State.flushLanes_mgmt_causes (x : Nat) (s : State) : (s.flushLanes x).mgmt.causes = s.mgmt.causes := rfl
@[simp] theorem State.flushLanes_mgmt_unit (x : Nat) (s : State) : (s.flushLanes x).mgmt.unit = s.mgmt.unit := rfl
@[simp] theorem State.flushLanes_mgmt_inbox (x : Nat) (s : State) : (s.flushLanes x).mgmt.inbox = s.mgmt.inbox := rfl
@[simp] theorem State.flushLanes_mgmt_requests (x : Nat) (s : State) : (s.flushLanes x).mgmt.requests = s.mgmt.requests := rfl
@[simp] theorem State.flushLanes_mgmt_batch (x : Nat) (s : State) : (s.flushLanes x).mgmt.batch = s.mgmt.batch := rfl
@[simp] theorem State.flushLanes_mgmt_flags (x : Nat) (s : State) : (s.flushLanes x).mgmt.flags = s.mgmt.flags := rfl
@[simp] theorem State.flushLanes_mgmt_enables (x : Nat) (s : State) : (s.flushLanes x).mgmt.enables = s.mgmt.enables := rfl
@[simp] theorem State.flushLanes_mgmt_conditions (x : Nat) (s : State) : (s.flushLanes x).mgmt.conditions = s.mgmt.conditions := rfl
@[simp] theorem State.flushLanes_mgmt_alertReports (x : Nat) (s : State) : (s.flushLanes x).mgmt.alertReports = s.mgmt.alertReports := rfl

/-! #### takeTurn -/

@[simp] theorem State.takeTurn_pending (x : Nat) (s : State) : (s.takeTurn x).pending = s.pending := rfl
@[simp] theorem State.takeTurn_now (x : Nat) (s : State) : (s.takeTurn x).now = s.now := rfl
@[simp] theorem State.takeTurn_straps (x : Nat) (s : State) : (s.takeTurn x).straps = s.straps := rfl
@[simp] theorem State.takeTurn_classifier (x : Nat) (s : State) : (s.takeTurn x).classifier = s.classifier := rfl
@[simp] theorem State.takeTurn_monitor (x : Nat) (s : State) : (s.takeTurn x).monitor = s.monitor := rfl
@[simp] theorem State.takeTurn_vote (x : Nat) (s : State) : (s.takeTurn x).vote = s.vote := rfl
@[simp] theorem State.takeTurn_loc (x : Nat) (s : State) : (s.takeTurn x).loc = s.loc := rfl
@[simp] theorem State.takeTurn_reach (x : Nat) (s : State) : (s.takeTurn x).reach = s.reach := rfl
@[simp] theorem State.takeTurn_egress_core (x : Nat) (s : State) : (s.takeTurn x).egress.core = s.egress.core := rfl
@[simp] theorem State.takeTurn_egress_coreTx (x : Nat) (s : State) : (s.takeTurn x).egress.coreTx = s.egress.coreTx := rfl
@[simp] theorem State.takeTurn_egress_reports (x : Nat) (s : State) : (s.takeTurn x).egress.reports = s.egress.reports := rfl
@[simp] theorem State.takeTurn_mgmt_run (x : Nat) (s : State) : (s.takeTurn x).mgmt.run = s.mgmt.run := rfl
@[simp] theorem State.takeTurn_mgmt_lock (x : Nat) (s : State) : (s.takeTurn x).mgmt.lock = s.mgmt.lock := rfl
@[simp] theorem State.takeTurn_mgmt_causes (x : Nat) (s : State) : (s.takeTurn x).mgmt.causes = s.mgmt.causes := rfl
@[simp] theorem State.takeTurn_mgmt_unit (x : Nat) (s : State) : (s.takeTurn x).mgmt.unit = s.mgmt.unit := rfl
@[simp] theorem State.takeTurn_mgmt_inbox (x : Nat) (s : State) : (s.takeTurn x).mgmt.inbox = s.mgmt.inbox := rfl
@[simp] theorem State.takeTurn_mgmt_requests (x : Nat) (s : State) : (s.takeTurn x).mgmt.requests = s.mgmt.requests := rfl
@[simp] theorem State.takeTurn_mgmt_batch (x : Nat) (s : State) : (s.takeTurn x).mgmt.batch = s.mgmt.batch := rfl
@[simp] theorem State.takeTurn_mgmt_flags (x : Nat) (s : State) : (s.takeTurn x).mgmt.flags = s.mgmt.flags := rfl
@[simp] theorem State.takeTurn_mgmt_enables (x : Nat) (s : State) : (s.takeTurn x).mgmt.enables = s.mgmt.enables := rfl
@[simp] theorem State.takeTurn_mgmt_conditions (x : Nat) (s : State) : (s.takeTurn x).mgmt.conditions = s.mgmt.conditions := rfl
@[simp] theorem State.takeTurn_mgmt_alertReports (x : Nat) (s : State) : (s.takeTurn x).mgmt.alertReports = s.mgmt.alertReports := rfl

/-! #### setFlood -/

@[simp] theorem State.setFlood_pending (b : Bool) (s : State) : (s.setFlood b).pending = s.pending := rfl
@[simp] theorem State.setFlood_now (b : Bool) (s : State) : (s.setFlood b).now = s.now := rfl
@[simp] theorem State.setFlood_straps (b : Bool) (s : State) : (s.setFlood b).straps = s.straps := rfl
@[simp] theorem State.setFlood_classifier (b : Bool) (s : State) : (s.setFlood b).classifier = s.classifier := rfl
@[simp] theorem State.setFlood_monitor (b : Bool) (s : State) : (s.setFlood b).monitor = s.monitor := rfl
@[simp] theorem State.setFlood_vote (b : Bool) (s : State) : (s.setFlood b).vote = s.vote := rfl
@[simp] theorem State.setFlood_loc (b : Bool) (s : State) : (s.setFlood b).loc = s.loc := rfl
@[simp] theorem State.setFlood_reach_rows (b : Bool) (s : State) : (s.setFlood b).reach.rows = s.reach.rows := rfl
@[simp] theorem State.setFlood_reach_inbox (b : Bool) (s : State) : (s.setFlood b).reach.inbox = s.reach.inbox := rfl
@[simp] theorem State.setFlood_reach_siteReports (b : Bool) (s : State) : (s.setFlood b).reach.siteReports = s.reach.siteReports := rfl
@[simp] theorem State.setFlood_egress (b : Bool) (s : State) : (s.setFlood b).egress = s.egress := rfl
@[simp] theorem State.setFlood_mgmt (b : Bool) (s : State) : (s.setFlood b).mgmt = s.mgmt := rfl

end Sys2Proof.Machine
end

