-- ==== Sys2Proof/Laws/Tab.lean ====
section
/-! SUPPORT. The laws of tables: what a read gives after a write, and what writes keep. -/

namespace Sys2Proof.Tab

variable {α : Type}

/-! ### Reading after a write -/

theorem at?_insert_self (k : Nat) (v : α) (t : Tab α) : (insert k v t).at? k = some v := by
  induction t with
  | nil => simp [insert, at?]
  | cons p t ih =>
    obtain ⟨j, w⟩ := p
    simp only [insert]
    split
    · simp [at?]
    · split <;> rename_i h
      · simp [at?]
      · simp [at?, h, ih]

theorem at?_insert_ne {k j : Nat} (h : j ≠ k) (v : α) (t : Tab α) : (insert k v t).at? j = t.at? j := by
  have h' : ¬k = j := fun e => h e.symm
  induction t with
  | nil => simp [insert, at?, h']
  | cons p t ih =>
    obtain ⟨i, w⟩ := p
    simp only [insert]
    split
    · simp [at?, h']
    · split <;> rename_i hi
      · subst hi; simp [at?, h']
      · simp only [at?, ih]

theorem at?_insert (k j : Nat) (v : α) (t : Tab α) : (insert k v t).at? j = if j = k then some v else t.at? j := by
  split <;> rename_i h
  · subst h; exact at?_insert_self _ _ _
  · exact at?_insert_ne h _ _

theorem at?_erase_self (k : Nat) (t : Tab α) : (erase k t).at? k = none := by
  induction t with
  | nil => rfl
  | cons p t ih =>
    obtain ⟨i, w⟩ := p
    simp only [erase] at ih ⊢
    by_cases h : i = k
    · subst h; simp [ih]
    · simp [h, at?, ih]

theorem at?_erase_ne {k j : Nat} (h : j ≠ k) (t : Tab α) : (erase k t).at? j = t.at? j := by
  induction t with
  | nil => rfl
  | cons p t ih =>
    obtain ⟨i, w⟩ := p
    simp only [erase] at ih ⊢
    by_cases hi : i = k
    · subst hi
      have h' : ¬i = j := fun e => h e.symm
      simp [at?, h', ih]
    · simp [hi, at?, ih]

theorem at?_erase (k j : Nat) (t : Tab α) : (erase k t).at? j = if j = k then none else t.at? j := by
  split <;> rename_i h
  · subst h; exact at?_erase_self _ _
  · exact at?_erase_ne h _

theorem atD_put_self [DecidableEq α] (d : α) (k : Nat) (v : α) (t : Tab α) : (put d k v t).atD k d = v := by
  unfold put atD
  split <;> rename_i h
  · simp [at?_erase_self, h]
  · simp [at?_insert_self]

theorem atD_put_ne [DecidableEq α] {k j : Nat} (h : j ≠ k) (d : α) (v : α) (t : Tab α) : (put d k v t).atD j d = t.atD j d := by
  unfold put atD
  split
  · simp [at?_erase_ne h]
  · simp [at?_insert_ne h]

theorem atD_put [DecidableEq α] (d : α) (k j : Nat) (v : α) (t : Tab α) :
    (put d k v t).atD j d = if j = k then v else t.atD j d := by
  split <;> rename_i h
  · subst h; exact atD_put_self _ _ _ _
  · exact atD_put_ne h _ _ _

/-- Erasing what was just written leaves what erasing alone leaves. -/
theorem erase_insert (k : Nat) (v : α) (t : Tab α) : erase k (insert k v t) = erase k t := by
  induction t with
  | nil => simp [insert, erase]
  | cons p t ih =>
    obtain ⟨i, w⟩ := p
    simp only [insert]
    split
    · simp [erase]
    · split <;> rename_i hi
      · subst hi; simp [erase]
      · simp only [erase] at ih ⊢
        simp [hi, ih]

/-! ### Members -/

theorem mem_insert {k : Nat} {v : α} {t : Tab α} {p : Nat × α} (h : p ∈ insert k v t) : p = (k, v) ∨ p ∈ t := by
  induction t with
  | nil => simp only [insert, List.mem_singleton] at h; exact .inl h
  | cons q t ih =>
    obtain ⟨i, w⟩ := q
    simp only [insert] at h
    split at h
    · rcases List.mem_cons.1 h with h | h
      · exact .inl h
      · exact .inr h
    · split at h
      · rcases List.mem_cons.1 h with h | h
        · exact .inl h
        · exact .inr (List.mem_cons_of_mem _ h)
      · rcases List.mem_cons.1 h with h | h
        · exact .inr (h ▸ List.mem_cons_self)
        · rcases ih h with h | h
          · exact .inl h
          · exact .inr (List.mem_cons_of_mem _ h)

theorem mem_erase {k : Nat} {t : Tab α} {p : Nat × α} : p ∈ erase k t ↔ p ∈ t ∧ p.1 ≠ k := by
  simp [erase]

theorem mem_put [DecidableEq α] {d : α} {k : Nat} {v : α} {t : Tab α} {p : Nat × α} (h : p ∈ put d k v t) : p = (k, v) ∨ p ∈ t := by
  unfold put at h
  split at h
  · exact .inr (mem_erase.1 h).1
  · exact mem_insert h

theorem mem_of_at? {k : Nat} {v : α} {t : Tab α} (h : t.at? k = some v) : (k, v) ∈ t := by
  induction t with
  | nil => simp [at?] at h
  | cons q t ih =>
    obtain ⟨i, w⟩ := q
    simp only [at?] at h
    split at h <;> rename_i hi
    · cases h; subst hi; exact List.mem_cons_self
    · exact List.mem_cons_of_mem _ (ih h)

/-- A record read other than the default is listed. -/
theorem mem_of_atD {k : Nat} {d : α} {t : Tab α} (h : t.atD k d ≠ d) : (k, t.atD k d) ∈ t := by
  unfold atD at h ⊢
  cases hk : t.at? k with
  | none => simp [hk] at h
  | some v => exact mem_of_at? hk

/-- Whatever holds of every listed record and of the default holds of every record read. -/
theorem atD_of_forall {P : α → Prop} {d : α} {t : Tab α} (hd : P d) (h : ∀ p ∈ t, P p.2) (k : Nat) : P (t.atD k d) := by
  unfold atD
  cases hk : t.at? k with
  | none => exact hd
  | some v => exact h _ (mem_of_at? hk)

/-! ### Sorted tables -/

theorem sorted_cons {k : Nat} {v : α} {t : Tab α} : sorted ((k, v) :: t) = true ↔ (∀ p ∈ t, k < p.1) ∧ sorted t = true := by
  simp [sorted]

theorem at?_none_of_lt {k : Nat} {t : Tab α} (h : ∀ p ∈ t, k < p.1) : t.at? k = none := by
  induction t with
  | nil => rfl
  | cons q t ih =>
    obtain ⟨i, w⟩ := q
    have hi : k < i := h (i, w) List.mem_cons_self
    have : ¬i = k := by omega
    simp [at?, this, ih fun p hp => h p (List.mem_cons_of_mem _ hp)]

/-- In a sorted table a listed record is the one read. -/
theorem at?_of_mem {k : Nat} {v : α} {t : Tab α} (hs : t.sorted = true) (h : (k, v) ∈ t) : t.at? k = some v := by
  induction t with
  | nil => simp at h
  | cons q t ih =>
    obtain ⟨i, w⟩ := q
    obtain ⟨h1, h2⟩ := sorted_cons.1 hs
    rcases List.mem_cons.1 h with h | h
    · cases h; simp [at?]
    · have := h1 _ h
      have : ¬i = k := by simp at this; omega
      simp [at?, this, ih h2 h]

theorem sorted_insert {k : Nat} {v : α} {t : Tab α} (hs : t.sorted = true) : (insert k v t).sorted = true := by
  induction t with
  | nil => simp [insert, sorted]
  | cons q t ih =>
    obtain ⟨i, w⟩ := q
    obtain ⟨h1, h2⟩ := sorted_cons.1 hs
    simp only [insert]
    split <;> rename_i hk
    · refine sorted_cons.2 ⟨?_, hs⟩
      intro p hp
      rcases List.mem_cons.1 hp with h | h
      · subst h; exact hk
      · exact Nat.lt_trans hk (h1 p h)
    · split <;> rename_i hi
      · subst hi; exact sorted_cons.2 ⟨h1, h2⟩
      · refine sorted_cons.2 ⟨?_, ih h2⟩
        intro p hp
        rcases mem_insert hp with h | h
        · subst h; simp only; omega
        · exact h1 p h

theorem sorted_filter {t : Tab α} (f : Nat × α → Bool) (hs : t.sorted = true) : sorted (t.filter f) = true := by
  induction t with
  | nil => rfl
  | cons q t ih =>
    obtain ⟨i, w⟩ := q
    obtain ⟨h1, h2⟩ := sorted_cons.1 hs
    simp only [List.filter_cons]
    split
    · exact sorted_cons.2 ⟨fun p hp => h1 p (List.mem_filter.1 hp).1, ih h2⟩
    · exact ih h2

theorem sorted_erase {k : Nat} {t : Tab α} (hs : t.sorted = true) : (erase k t).sorted = true := sorted_filter _ hs

theorem sorted_map {β : Type} {t : Tab α} (f : Nat × α → β) (hs : t.sorted = true) :
    sorted (t.map fun p => (p.1, f p)) = true := by
  induction t with
  | nil => rfl
  | cons q t ih =>
    obtain ⟨i, w⟩ := q
    obtain ⟨h1, h2⟩ := sorted_cons.1 hs
    refine sorted_cons.2 ⟨?_, ih h2⟩
    intro p hp
    obtain ⟨r, hr, rfl⟩ := List.mem_map.1 hp
    exact h1 r hr

/-! ### Canonical tables -/

theorem canonical_iff [DecidableEq α] {d : α} {t : Tab α} : t.canonical d = true ↔ t.sorted = true ∧ ∀ p ∈ t, p.2 ≠ d := by
  simp [canonical]

/-- Writing a record keeps the canonical form. -/
theorem canonical_put [DecidableEq α] {d : α} {k : Nat} {v : α} {t : Tab α} (h : t.canonical d = true) :
    (put d k v t).canonical d = true := by
  obtain ⟨h1, h2⟩ := canonical_iff.1 h
  unfold put
  split <;> rename_i hv
  · exact canonical_iff.2 ⟨sorted_erase h1, fun p hp => h2 p (mem_erase.1 hp).1⟩
  · refine canonical_iff.2 ⟨sorted_insert h1, fun p hp => ?_⟩
    rcases mem_insert hp with h | h
    · subst h; exact hv
    · exact h2 p h

theorem canonical_filter [DecidableEq α] {d : α} {t : Tab α} (f : Nat × α → Bool) (h : t.canonical d = true) :
    canonical d (t.filter f) = true := by
  obtain ⟨h1, h2⟩ := canonical_iff.1 h
  exact canonical_iff.2 ⟨sorted_filter _ h1, fun p hp => h2 p (List.mem_filter.1 hp).1⟩

/-- Changing every record keeps the canonical form. -/
theorem canonical_remap [DecidableEq α] {d : α} {f : α → α} {t : Tab α} (h : t.canonical d = true) :
    (remap d f t).canonical d = true := by
  obtain ⟨h1, _⟩ := canonical_iff.1 h
  refine canonical_iff.2 ⟨sorted_filter _ (sorted_map _ h1), fun p hp => ?_⟩
  simpa using (List.mem_filter.1 hp).2

theorem at?_filter {t : Tab α} (f : Nat × α → Bool) (hs : t.sorted = true) (k : Nat) :
    at? (t.filter f) k = (t.at? k).filter fun v => f (k, v) := by
  induction t with
  | nil => rfl
  | cons q t ih =>
    obtain ⟨i, w⟩ := q
    obtain ⟨h1, h2⟩ := sorted_cons.1 hs
    by_cases hi : i = k
    · subst hi
      have hn : at? (t.filter f) i = none := at?_none_of_lt fun p hp => h1 p (List.mem_filter.1 hp).1
      by_cases hf : f (i, w) = true
      · simp [hf, at?, Option.filter]
      · simp [hf, at?, Option.filter, hn]
    · by_cases hf : f (i, w) = true
      · simp [hf, at?, hi, ih h2]
      · simp [hf, at?, hi, ih h2]

theorem at?_map {β : Type} (t : Tab α) (f : α → β) (k : Nat) :
    at? (t.map fun p => (p.1, f p.2)) k = (t.at? k).map f := by
  induction t with
  | nil => rfl
  | cons q t ih =>
    obtain ⟨i, w⟩ := q
    by_cases hi : i = k
    · simp [at?, hi]
    · simp [at?, hi, ih]

/-- Reading a sorted table whose every record was changed. -/
theorem atD_remap [DecidableEq α] {d : α} {f : α → α} {t : Tab α} (hs : t.sorted = true) (hd : f d = d) (k : Nat) :
    (remap d f t).atD k d = f (t.atD k d) := by
  unfold remap atD
  rw [at?_filter _ (sorted_map _ hs), at?_map]
  cases t.at? k with
  | none => simp [hd]
  | some v =>
    by_cases h : f v = d
    · simp [Option.filter, h]
    · simp [Option.filter, h]

/-! ### Totals over a table -/

/-- The sum of a figure over the listed records. -/
def total (f : α → Nat) (t : Tab α) : Nat := (t.map fun p => f p.2).sum

@[simp] theorem total_nil (f : α → Nat) : total f ([] : Tab α) = 0 := rfl

@[simp] theorem total_cons (f : α → Nat) (p : Nat × α) (t : Tab α) : total f (p :: t) = f p.2 + total f t := rfl

/-- What is read under a number, as a figure: 0 if nothing is listed. -/
def figure (f : α → Nat) (t : Tab α) (k : Nat) : Nat := match t.at? k with | some v => f v | none => 0

theorem figure_none_of_lt (f : α → Nat) {k : Nat} {t : Tab α} (h : ∀ p ∈ t, k < p.1) : figure f t k = 0 := by
  simp [figure, at?_none_of_lt h]

/-- Erasing a record takes its figure out of the total. -/
theorem total_erase (f : α → Nat) {t : Tab α} (hs : t.sorted = true) (k : Nat) :
    total f (erase k t) + figure f t k = total f t := by
  induction t with
  | nil => simp [erase, figure, at?]
  | cons q t ih =>
    obtain ⟨i, w⟩ := q
    obtain ⟨h1, h2⟩ := sorted_cons.1 hs
    by_cases hi : i = k
    · subst hi
      have he : erase i t = t := List.filter_eq_self.2 fun p hp => by
        have := h1 p hp
        simp; omega
      have : erase i ((i, w) :: t) = t := by
        have h' : erase i ((i, w) :: t) = erase i t := by simp [erase]
        rw [h', he]
      rw [this]
      simp [figure, at?]
      omega
    · have : erase k ((i, w) :: t) = (i, w) :: erase k t := by simp [erase, hi]
      rw [this]
      have hf : figure f ((i, w) :: t) k = figure f t k := by simp [figure, at?, hi]
      rw [hf, total_cons, total_cons, ← ih h2]
      simp; omega

/-- Writing a record puts its figure into the total, and takes out the one it replaces. -/
theorem total_insert (f : α → Nat) {t : Tab α} (hs : t.sorted = true) (k : Nat) (v : α) :
    total f (insert k v t) + figure f t k = total f t + f v := by
  induction t with
  | nil => simp [insert, figure, at?]
  | cons q t ih =>
    obtain ⟨i, w⟩ := q
    obtain ⟨h1, h2⟩ := sorted_cons.1 hs
    simp only [insert]
    split <;> rename_i hk
    · have : figure f ((i, w) :: t) k = 0 := figure_none_of_lt f fun p hp => by
        rcases List.mem_cons.1 hp with h | h
        · subst h; exact hk
        · exact Nat.lt_trans hk (h1 p h)
      rw [this]
      simp; omega
    · split <;> rename_i hi
      · subst hi; simp [figure, at?]; omega
      · have hf : figure f ((i, w) :: t) k = figure f t k := by simp [figure, at?, hi]
        have := ih h2
        rw [hf]; simp; omega

theorem total_put [DecidableEq α] (f : α → Nat) {d : α} (hd : f d = 0) {t : Tab α} (hs : t.sorted = true) (k : Nat) (v : α) :
    total f (put d k v t) + figure f t k = total f t + f v := by
  unfold put
  split <;> rename_i h
  · subst h; simpa [hd] using total_erase f hs k
  · exact total_insert f hs k v

theorem figure_eq_atD (f : α → Nat) {d : α} (hd : f d = 0) (t : Tab α) (k : Nat) : figure f t k = f (t.atD k d) := by
  unfold figure atD
  cases t.at? k <;> simp [hd]

/-! ### Tables of consecutive numbers -/

theorem sorted_range' (f : Nat → α) (a n : Nat) : sorted ((List.range' a n).map fun k => (k, f k)) = true := by
  induction n generalizing a with
  | zero => rfl
  | succ n ih =>
    rw [List.range'_succ, List.map_cons, sorted_cons]
    refine ⟨fun p hp => ?_, ih (a + 1)⟩
    obtain ⟨k, hk, rfl⟩ := List.mem_map.mp hp
    have := List.mem_range'_1.mp hk
    simp only
    omega

theorem at?_range' (f : Nat → α) (a n j : Nat) :
    Tab.at? ((List.range' a n).map fun k => (k, f k)) j = if a ≤ j ∧ j < a + n then some (f j) else none := by
  induction n generalizing a with
  | zero => rw [if_neg (by omega)]; rfl
  | succ n ih =>
    rw [List.range'_succ, List.map_cons, at?, ih]
    by_cases h : a = j
    · subst h; simp
    · rw [if_neg h]
      by_cases h2 : a + 1 ≤ j ∧ j < a + 1 + n
      · rw [if_pos h2, if_pos (by omega)]
      · rw [if_neg h2, if_neg (by omega)]

end Sys2Proof.Tab
end

