-- ==== Sys2Proof/Laws/Ops.lean ====
section
/-! SUPPORT. What each shared operation does: one lemma for each thing it can do, cited by later proofs in place of its definition. -/

namespace Sys2Proof

/-! ### Tables -/

theorem Tab.insert_insert {α : Type} (k : Nat) (v w : α) (t : Tab α) : (t.insert k v).insert k w = t.insert k w := by
  induction t with
  | nil => simp [Tab.insert]
  | cons p t ih =>
    obtain ⟨j, u⟩ := p
    rcases Nat.lt_trichotomy k j with h | h | h
    · simp [Tab.insert, h]
    · subst h; simp [Tab.insert]
    · simp [Tab.insert, Nat.not_lt.mpr (Nat.le_of_lt h), Nat.ne_of_lt h, ih]

theorem Tab.countP_insert_of_at? {α : Type} (f : Nat × α → Bool) {k : Nat} {v w : α} {t : Tab α} (hs : t.sorted = true)
    (h : t.at? k = some v) (hf : f (k, v) = f (k, w)) : (t.insert k w).countP f = t.countP f := by
  induction t with
  | nil => simp [Tab.at?] at h
  | cons p t ih =>
    obtain ⟨j, u⟩ := p
    rw [Tab.sorted_cons] at hs
    simp only [Tab.at?] at h
    split at h
    · rename_i hj
      subst hj
      cases h
      simp [Tab.insert, List.countP_cons, hf]
    · rename_i hj
      have hm := Tab.mem_of_at? h
      have hlt := hs.1 _ hm
      simp only at hlt
      simp [Tab.insert, Nat.not_lt.mpr (Nat.le_of_lt hlt), hj, List.countP_cons, ih hs.2 h]

theorem Tab.length_insert_of_at? {α : Type} {k : Nat} {v : α} (w : α) {t : Tab α} (hs : t.sorted = true)
    (h : t.at? k = some v) : (t.insert k w).length = t.length := by
  have := Tab.countP_insert_of_at? (fun _ => true) (w := w) hs h rfl
  simpa using this

theorem Tab.any_insert_of_at? {α : Type} (f : Nat × α → Bool) {k : Nat} {v w : α} {t : Tab α} (hs : t.sorted = true)
    (h : t.at? k = some v) (hf : f (k, v) = f (k, w)) : (t.insert k w).any f = t.any f := by
  have := Tab.countP_insert_of_at? f hs h hf
  rw [Bool.eq_iff_iff, List.any_eq_true, List.any_eq_true, ← List.countP_pos_iff, ← List.countP_pos_iff, this]

namespace Machine

/-! ### Differences -/

theorem gained_self {α : Type} [DecidableEq α] (l : List α) : gained l l = [] := by
  simp [gained, List.filter_eq_nil_iff]

theorem changeMembers_nil (rows : Tab GroupRow) (f : List Nat → Tab Nat → Tab Nat) (m : Tab (Tab Nat)) :
    changeMembers rows f [] m = m := rfl

theorem changeEmergencies_nil (rows : Tab GroupRow) (f : List Nat → Tab Nat → Tab Nat) (t : Tab Nat) :
    changeEmergencies rows f [] t = t := rfl

theorem raiseAt_nil (t : Tab Nat) : raiseAt [] t = t := rfl

theorem lowerAt_nil (t : Tab Nat) : lowerAt [] t = t := rfl

/-! ### Entries -/

theorem State.entry_writeEntry_self (k : Nat) (n : Option Entry) (s : State) : (s.writeEntry k n).entry k = n := by
  cases n <;> simp [State.writeEntry, State.entry, Tab.at?_insert_self, Tab.at?_erase_self]

theorem State.entry_writeEntry_ne {k j : Nat} (h : j ≠ k) (n : Option Entry) (s : State) :
    (s.writeEntry k n).entry j = s.entry j := by
  cases n <;> simp [State.writeEntry, State.entry, Tab.at?_insert_ne h, Tab.at?_erase_ne h]

/-- Two contents of a slot count alike: the same sites, memberships and emergency, and MOVING or not. -/
def Alike (a b : Option Entry) : Prop :=
  sitesOf a = sitesOf b ∧ membershipsOf a = membershipsOf b ∧ emergencyOf a = emergencyOf b ∧ isMoving a = isMoving b

theorem Alike.of_entry {e f : Entry} (h1 : e.sites = f.sites) (h2 : e.talkgroup = f.talkgroup) (h3 : e.emergency = f.emergency)
    (h4 : e.state = .moving ↔ f.state = .moving) : Alike (some e) (some f) := by
  refine ⟨h1, ?_, ?_, ?_⟩ <;> simp [membershipsOf, emergencyOf, isMoving, h1, h2, h3, h4]

/-- Changing what the counts do not read. -/
theorem Alike.of_kept {e f : Entry} (h1 : f.state = e.state) (h2 : f.serving = e.serving)
    (h3 : f.handover.map (·.target) = e.handover.map (·.target)) (h4 : f.talkgroup = e.talkgroup) (h5 : f.emergency = e.emergency) :
    Alike (some e) (some f) := by
  refine Alike.of_entry ?_ h4.symm h5.symm (by rw [h1])
  unfold Entry.sites
  rw [h1, h2]
  cases hs : e.state <;> cases he : e.handover <;> cases hf : f.handover <;> simp_all

/-- Writing a slot, with what stood there given. -/
theorem State.writeEntry_eq {k : Nat} {o : Option Entry} {s : State} (h : s.entry k = o) (n : Option Entry) :
    s.writeEntry k n =
      { s with
        loc.entries := match n with | some e => s.loc.entries.insert k e | none => s.loc.entries.erase k
        loc.loads := raiseAt (gained (sitesOf o) (sitesOf n)) (lowerAt (gained (sitesOf n) (sitesOf o)) s.loc.loads)
        loc.members :=
          changeMembers s.reach.rows raiseAt (gained (membershipsOf o) (membershipsOf n))
            (changeMembers s.reach.rows lowerAt (gained (membershipsOf n) (membershipsOf o)) s.loc.members)
        loc.emergencies :=
          changeEmergencies s.reach.rows raiseAt (gained (emergencyOf o) (emergencyOf n))
            (changeEmergencies s.reach.rows lowerAt (gained (emergencyOf n) (emergencyOf o)) s.loc.emergencies)
        loc.visits := if n.isSome then s.loc.visits else s.loc.visits.filter (· != k)
        loc.siteReports := if n.isSome then s.loc.siteReports else s.loc.siteReports.filter (·.slot != k)
        loc.stopReports :=
          if isMoving o && !isMoving n then s.loc.stopReports.filter (· != k) else s.loc.stopReports } := by
  subst h; rfl

/-- Writing what counts as what stood there changes the table alone. -/
theorem State.writeEntry_alike {k : Nat} {o : Option Entry} {f : Entry} {s : State} (h : s.entry k = o) (ha : Alike o (some f)) :
    s.writeEntry k (some f) = { s with loc.entries := s.loc.entries.insert k f } := by
  obtain ⟨hs, hg, he, hm⟩ := ha
  rw [State.writeEntry_eq h]
  simp only [hm, hs, hg, he, gained_self, raiseAt_nil, lowerAt_nil, changeMembers_nil, changeEmergencies_nil]
  cases isMoving (some f) <;> rfl

/-- The first of two writes to a slot is lost if it counts as what stood there before. -/
theorem State.writeEntry_writeEntry {k : Nat} {o : Option Entry} {f : Entry} {s : State} (h : s.entry k = o) (ha : Alike o (some f))
    (n : Option Entry) : (s.writeEntry k (some f)).writeEntry k n = s.writeEntry k n := by
  have hk : (s.writeEntry k (some f)).entry k = some f := State.entry_writeEntry_self ..
  rw [State.writeEntry_eq hk, State.writeEntry_alike h ha, State.writeEntry_eq h]
  obtain ⟨hs, hg, he, hm⟩ := ha
  cases n <;> simp [hm, hs, hg, he, Tab.erase_insert, Tab.insert_insert]

/-- The first of two writes to a slot is lost if it counts as the second. -/
theorem State.writeEntry_writeEntry_alike {k : Nat} {f g : Entry} (ha : Alike (some f) (some g)) (s : State) :
    (s.writeEntry k (some f)).writeEntry k (some g) = s.writeEntry k (some g) := by
  rw [State.writeEntry_alike (State.entry_writeEntry_self k (some f) s) ha]
  obtain ⟨hs, hg, he, hm⟩ := ha
  rw [State.writeEntry_eq rfl, State.writeEntry_eq rfl]
  simp [hm, hs, hg, he, Tab.insert_insert]

/-! ### Writing an entry and offering frames do not meet -/

theorem State.writeEntry_count (k : Nat) (n : Option Entry) (c : CounterId) (s : State) :
    (s.writeEntry k n).count c = (s.count c).writeEntry k n := rfl

theorem State.writeEntry_reportAlert (k : Nat) (n : Option Entry) (c : AlertClass) (v : Bool) (s : State) :
    (s.writeEntry k n).reportAlert c v = (s.reportAlert c v).writeEntry k n := rfl

theorem State.writeEntry_offerCore (k : Nat) (n : Option Entry) (f : CoreFrame) (s : State) :
    (s.writeEntry k n).offerCore f = (s.offerCore f).writeEntry k n := by
  have h : (s.writeEntry k n).coreVerdict f = s.coreVerdict f := rfl
  unfold State.offerCore
  rw [h]
  cases s.coreVerdict f <;> rfl

theorem State.writeEntry_issueDirective (k : Nat) (n : Option Entry) (d : Directive) (s : State) :
    (s.writeEntry k n).issueDirective d = (s.issueDirective d).writeEntry k n := by
  have h : (s.writeEntry k n).controlVerdict d.site = s.controlVerdict d.site := rfl
  have hu : (s.writeEntry k n).siteUp d.site = s.siteUp d.site := rfl
  unfold State.issueDirective State.offerControl
  rw [h, hu]
  cases s.siteUp d.site <;> cases s.controlVerdict d.site <;> rfl

/-! ### Counting and sites -/

/-- A counter raised by n reads as `Counter.add` gives; the others read as before. -/
theorem State.countBy_counters (n : Nat) (c : CounterId) (s : State) (k : Nat) :
    (s.countBy n c).mgmt.counters.atD k Counter.zero =
      if k = c.key then (s.mgmt.counters.atD k Counter.zero).add n else s.mgmt.counters.atD k Counter.zero := by
  simp only [State.countBy, Tab.atD_put]
  split
  · rename_i h; subst h; rfl
  · rfl

/-- The site just written reads as written; the others read as before. -/
theorem State.site_putSite (x y : Nat) (r : SiteRecord) (s : State) : (s.putSite x r).site y = if y = x then r else s.site y := by
  simp only [State.putSite, State.site, Tab.atD_put]

/-- A condition is reported only if it has changed. -/
theorem State.reportChange_same (c : AlertClass) (v : Bool) (s : State) : s.reportChange c v v = s := if_pos rfl

/-! ### Offers -/

/-- What offering a frame to the core queue can do. -/
theorem State.offerCore_cases (f : CoreFrame) (s : State) :
    s.offerCore f = s.pushCore f ∨
      s.offerCore f = s.count (.global .coreQueueDrops) ∨
        s.offerCore f = (s.count (.global .coreQueueDrops)).reportAlert .queueDrop true := by
  unfold State.offerCore State.dropped
  cases s.coreVerdict f <;> simp

/-- What offering a frame to a control lane can do. -/
theorem State.offerControl_cases (x : Nat) (f : ControlFrame) (s : State) :
    s.offerControl x f = (s.pushControl x f, .admitted) ∨
      s.offerControl x f = (s.count (.site x .queueDrops), .noSite) ∨
        s.offerControl x f = ((s.count (.site x .queueDrops)).reportAlert .queueDrop true, .noRoom) := by
  unfold State.offerControl State.dropped
  cases s.controlVerdict x <;> simp

/-- What offering a frame to a voice lane can do. -/
theorem State.offerVoice_cases (x : Nat) (f : DownlinkCopy) (s : State) :
    s.offerVoice x f = (s.pushVoice x f, .admitted) ∨
      s.offerVoice x f = (s.count (.site x .queueDrops), .noSite) ∨
        s.offerVoice x f = ((s.count (.site x .queueDrops)).reportAlert .queueDrop true, .noRoom) := by
  unfold State.offerVoice State.dropped
  cases s.voiceVerdict x <;> simp

/-- What issuing a directive can do. -/
theorem State.issueDirective_cases (d : Directive) (s : State) :
    s.issueDirective d = s ∨ s.issueDirective d = s.pushControl d.site (.directive d) ∨
      s.issueDirective d = (s.count (.site d.site .queueDrops)).count (.site d.site .directiveDrops) ∨
        s.issueDirective d =
          ((s.count (.site d.site .queueDrops)).reportAlert .queueDrop true).count (.site d.site .directiveDrops) := by
  unfold State.issueDirective
  rcases State.offerControl_cases d.site (.directive d) s with h | h | h <;> rw [h] <;> cases s.siteUp d.site <;> simp

/-! ### Choosing among candidates -/

/-- A choice by a strict preference picks the element preferred to every other. -/
theorem foldl_preferred {α : Type} (better : α → α → Bool) (f : Option α → α → Option α) (hf0 : ∀ c, f none c = some c)
    (hf1 : ∀ d c, f (some d) c = if better c d then some c else some d) (l : List α) (b : α) (hb : b ∈ l)
    (h1 : ∀ c ∈ l, c ≠ b → better c b = false) (h2 : ∀ c ∈ l, c ≠ b → better b c = true) : l.foldl f none = some b := by
  have gen : ∀ (l' : List α) (v : Option α), (∀ c ∈ l', c ∈ l) → (v = some b ∨ (b ∈ l' ∧ ∀ d, v = some d → d ∈ l)) →
      l'.foldl f v = some b := by
    intro l'
    induction l' with
    | nil =>
      intro v _ h
      rcases h with h | h
      · exact h
      · simp at h
    | cons c t ih =>
      intro v hsub h
      simp only [List.foldl_cons]
      apply ih _ (fun x hx => hsub x (List.mem_cons_of_mem _ hx))
      have hc := hsub c (by simp)
      rcases h with h | ⟨h, hd⟩
      · subst h
        left
        by_cases e : c = b
        · subst e; simp [hf1]
        · simp [hf1, h1 c hc e]
      · by_cases e : c = b
        · subst e
          left
          cases v with
          | none => simp [hf0]
          | some d =>
            by_cases e' : d = c
            · subst e'; simp [hf1]
            · simp [hf1, h2 d (hd d rfl) e']
        · right
          refine ⟨by simpa [Ne.symm e] using h, ?_⟩
          intro d hd'
          cases v with
          | none =>
            simp only [hf0, Option.some.injEq] at hd'
            subst hd'
            exact hc
          | some d0 =>
            rw [hf1] at hd'
            split at hd' <;> simp only [Option.some.injEq] at hd' <;> subst hd'
            · exact hc
            · exact hd _ rfl
  exact gen l none (fun _ h => h) (Or.inr ⟨hb, by simp⟩)

/-! ### Slots -/

/-- The lowest free slot is found. -/
theorem freeSlot_eq (t : Tab Entry) (n a k : Nat) (h1 : a ≤ k) (h2 : k < a + n) (hk : t.at? k = none)
    (h : ∀ j, a ≤ j → j < k → (t.at? j).isSome = true) : freeSlot t n a = some k := by
  induction n generalizing a with
  | zero => omega
  | succ n ih =>
    by_cases ha : a = k
    · subst ha; simp [freeSlot, hk]
    · have := h a (Nat.le_refl a) (by omega)
      rw [freeSlot, if_neg (by simpa using Option.ne_none_iff_isSome.mpr this)]
      exact ih (a + 1) (by omega) (by omega) fun j h3 h4 => h j (by omega) h4

/-- No free slot is found among occupied ones. -/
theorem freeSlot_none (t : Tab Entry) (n a : Nat) (h : ∀ j, a ≤ j → j < a + n → (t.at? j).isSome = true) : freeSlot t n a = none := by
  induction n generalizing a with
  | zero => rfl
  | succ n ih =>
    rw [freeSlot, if_neg (by simpa using Option.ne_none_iff_isSome.mpr (h a (Nat.le_refl a) (by omega)))]
    exact ih (a + 1) fun j h3 h4 => h j (by omega) (by omega)

/-- A radio's entry, found in a table in rising order, is the one in its slot. -/
theorem State.entry_of_lookup {s : State} {radio : RadioId} {k : Nat} {e : Entry} (hs : s.loc.entries.sorted = true)
    (h : s.lookup radio = some (k, e)) : s.entry k = some e :=
  Tab.at?_of_mem hs (List.mem_of_find?_eq_some h)

/-- The radio of an entry found is the one looked up. -/
theorem State.radio_of_lookup {s : State} {radio : RadioId} {k : Nat} {e : Entry} (h : s.lookup radio = some (k, e)) :
    e.radio = radio := by
  have := List.find?_some h
  simpa using this

/-! ### Handovers -/

/-- What starting a handover can do: nothing but the count of a refused SERVE, or the directives and the entry MOVING. -/
theorem State.startHandover_cases (slot : Nat) (e : Entry) (t : Nat) (origin : Origin) (s : State) :
    (∃ s1, (s1 = s.count (.site t .queueDrops) ∨ s1 = (s.count (.site t .queueDrops)).reportAlert .queueDrop true) ∧
        s.startHandover slot e t origin = (s1, false)) ∨
      ∃ s2 d, s2 = (s.pushControl t (.directive d)).issueDirective
          { site := e.serving, kind := .move, radio := e.radio, talkgroup := e.talkgroup, other := t, number := e.number + 1
            tableFull := false } ∧
        s.startHandover slot e t origin =
          (s2.writeEntry slot
            (some
              { e with
                number := e.number + 1
                handover := some { target := t, origin := origin, retries := 0, age := 0, accepted := false }
                state := .moving }), true) := by
  unfold State.startHandover
  dsimp only
  rcases State.offerControl_cases t
    (.directive
      { site := t, kind := .serve, radio := e.radio, talkgroup := e.talkgroup, other := e.serving, number := e.number + 1
        tableFull := false }) s with h | h | h <;> rw [h]
  · exact Or.inr ⟨_, _, rfl, rfl⟩
  · exact Or.inl ⟨_, Or.inl rfl, rfl⟩
  · exact Or.inl ⟨_, Or.inr rfl, rfl⟩

/-- What the roam decision can do to a slot that holds an entry. -/
theorem State.roamDecision_cases (slot : Nat) (s : State) :
    s.roamDecision slot = s ∨
      ∃ e b, s.entry slot = some e ∧ s.takesTarget e b = true ∧ s.roamDecision slot = (s.startHandover slot e b.site .directed).1 := by
  unfold State.roamDecision
  cases he : s.entry slot with
  | none => exact Or.inl rfl
  | some e =>
    cases hb : s.bestTarget e with
    | none => exact Or.inl (by simp [hb])
    | some b =>
      simp only [hb]
      by_cases ht : s.takesTarget e b = true
      · exact Or.inr ⟨e, b, rfl, ht, by simp [ht]⟩
      · exact Or.inl (by simp [ht])

end Machine

end Sys2Proof
end

