-- ==== Sys2Proof/Laws/Requests.lean ====
section
/-! SUPPORT. The checks on a request (R142) as the tables of bodies give them, and what completing a request does. -/

namespace Sys2Proof.Machine

theorem readLength_isSome (n : Nat) : (readLength n).isSome = true ↔ 1 ≤ n ∧ n ≤ 8 := by
  unfold readLength; split <;> simp_all; omega
theorem writeLength_isSome (n : Nat) : (writeLength n).isSome = true ↔ 1 ≤ n ∧ n ≤ 5 := by
  unfold writeLength; split <;> simp_all; omega
theorem controlLength_isSome (n : Nat) : (controlLength n).isSome = true ↔ 1 ≤ n ∧ n ≤ 5 := by
  unfold controlLength; split <;> simp_all; omega
theorem actionLength_isSome (n : Nat) : (actionLength n).isSome = true ↔ 1 ≤ n ∧ n ≤ 3 := by
  unfold actionLength; split <;> simp_all; omega

/-- A request's code is refused exactly when it is undefined, or when the body is too short to hold one. -/
theorem Request.codeOk_eq_false_iff (r : Request) :
    r.codeOk = false ↔
      CodeUndefined r ∨ (r.body = [] ∧ (r.kind = .read ∨ r.kind = .write ∨ r.kind = .control ∨ r.kind = .radioAction)) := by
  obtain ⟨tag, kind, body⟩ := r
  have e1 := readLength_isSome; have e2 := writeLength_isSome; have e3 := controlLength_isSome; have e4 := actionLength_isSome
  cases kind <;> cases body <;>
    simp [Request.codeOk, CodeUndefined, Request.code, codeLength, ← Option.not_isSome_iff_eq_none, e1, e2, e3, e4] <;> omega

/-- The items of a BATCH body are read exactly when it is laid out as table 9-7 gives. -/
theorem Request.items_isSome_iff (tag : BitVec 16) (body : List Byte) (k) : (Request.items ⟨tag, k, body⟩).isSome = true ↔
    ∃ items : List (List Byte), 1 ≤ items.length ∧ items.length ≤ 16 ∧ (∀ i ∈ items, i.length < 256) ∧
      body = byte items.length :: items.flatMap fun i => byte i.length :: i := by
  have key : ∀ (n : Nat) (bs : List Byte), bs.length ≤ n → ∀ items, batchItemsOf n bs = some items ↔
      (∀ i ∈ items, i.length < 256) ∧ bs = items.flatMap fun i => byte i.length :: i := by
    intro n
    induction n with
    | zero =>
      intro bs h items
      cases bs with
      | nil => cases items <;> simp [batchItemsOf]
      | cons b bs => simp at h
    | succ n ih =>
      intro bs h items
      cases bs with
      | nil => cases items <;> simp [batchItemsOf]
      | cons len rest =>
        simp only [batchItemsOf]
        simp only [List.length_cons] at h
        split
        · rename_i hlt
          constructor
          · intro h; cases h
          · rintro ⟨h1, h2⟩
            cases items with
            | nil => simp at h2
            | cons i is =>
              simp only [List.flatMap_cons, List.cons_append, List.cons.injEq] at h2
              have := h1 i (by simp)
              have hl : len.toNat = i.length := by rw [h2.1]; simp [byte]; omega
              rw [h2.2] at hlt; simp at hlt; omega
        · rename_i hlt
          have ih' := ih (rest.drop len.toNat) (by simp; omega)
          constructor
          · intro hh
            simp only [Option.map_eq_some_iff] at hh
            obtain ⟨is, h3, rfl⟩ := hh
            have ⟨h4, h5⟩ := (ih' is).mp h3
            have hl : (rest.take len.toNat).length = len.toNat := by simp; omega
            refine ⟨?_, ?_⟩
            · intro i hi
              rcases List.mem_cons.mp hi with rfl | hi
              · rw [hl]; exact len.isLt
              · exact h4 i hi
            · simp only [List.flatMap_cons, hl, ← h5, List.cons_append, List.take_append_drop]
              simp [byte]
          · rintro ⟨h1, h2⟩
            cases items with
            | nil => simp at h2
            | cons i is =>
              simp only [List.flatMap_cons, List.cons_append, List.cons.injEq] at h2
              have := h1 i (by simp)
              have hl : len.toNat = i.length := by rw [h2.1]; simp [byte]; omega
              simp only [Option.map_eq_some_iff]
              refine ⟨is, (ih' is).mpr ⟨fun j hj => h1 j (by simp [hj]), ?_⟩, ?_⟩
              · rw [h2.2, hl]; simp
              · rw [h2.2, hl]; simp
  cases body with
  | nil => simp [Request.items]
  | cons b rest =>
    simp only [Request.items]
    cases hb : batchItemsOf rest.length rest with
    | none =>
      simp
      intro items _ _ h3 _ h5
      have := (key _ rest (Nat.le_refl _) items).mpr ⟨h3, h5⟩
      rw [hb] at this; cases this
    | some its =>
      have ⟨k1, k2⟩ := (key _ rest (Nat.le_refl _) its).mp hb
      simp only [Config.batchItems]
      constructor
      · intro h
        split at h
        · rename_i hc
          refine ⟨its, hc.2.1, hc.2.2, k1, ?_⟩
          rw [← k2, hc.1]; simp [byte]
        · cases h
      · rintro ⟨items, h1, h2, h3, h4⟩
        simp only [List.cons.injEq] at h4
        have h5 := (key _ rest (Nat.le_refl _) items).mpr ⟨h3, h4.2⟩
        rw [hb] at h5; cases h5
        rw [if_pos]; rfl
        refine ⟨?_, h1, h2⟩
        rw [h4.1]; simp [byte]; omega

theorem exists_cons_iff (b : Byte) (rest : List Byte) (P : Byte → List Byte → Prop) :
    (∃ code tail, b :: rest = code :: tail ∧ P code tail) ↔ P b rest :=
  ⟨fun ⟨_, _, h, hp⟩ => by cases h; exact hp, fun hp => ⟨b, rest, rfl, hp⟩⟩

/-- Check 1 of R142 passes exactly the bodies of the length that the tables call for. -/
theorem Request.lengthOk_iff (r : Request) : r.lengthOk = true ↔ LengthRight r := by
  obtain ⟨tag, kind, body⟩ := r
  cases kind <;> simp only [Request.lengthOk, LengthRight]
  case batch => exact Request.items_isSome_iff tag body _
  case identify | status | clearCounters => simp
  case ackAlerts | reset => simp
  all_goals
    cases body with
    | nil => simp [Request.code]
    | cons b rest =>
      rw [exists_cons_iff b rest]
      simp only [Request.code, List.head?_cons, Option.map_some, codeLength, readLength, writeLength, controlLength, actionLength]
      generalize b.toNat = n
      split <;> split at * <;> simp_all <;> (try omega)
      try (subst_vars; simp)

/-- What completing the front request does: refused by the first of checks 1 to 4 that fails, else its effect with the response; a row
that is not the request's leaves the state as it is. -/
theorem State.complete_of_front (isFor : Request → Bool) (effect : Request → State → State × Option Answer) (s : State) (r : Request)
    (rest : List Request) (h : Front s r rest) :
    s.complete isFor effect =
      if isFor r then
        match (taken s rest).precheck r with
        | some res => answeredWith r res (if r.kind = .batch then [0] else []) (taken s rest)
        | none =>
          match effect r (taken s rest) with
          | (t, some (res, body)) => answeredWith r res body t
          | (t, none) => t
      else s := by
  unfold State.complete; rw [h]; rfl

/-- Every row that completes requests is `State.complete` of some effect, for exactly the requests the row serves. -/
theorem exec_of_completedKind (c : Instr) (k : RequestKind) (hk : completedKind c = some k) :
    ∃ isFor effect, (∀ s, exec c s = .next (s.complete isFor effect)) ∧ ∀ r, isFor r = true ↔ Serves c r := by
  cases c <;> simp only [completedKind, Option.some.injEq, reduceCtorEq] at hk <;> subst hk <;>
    (refine ⟨_, _, fun s => rfl, fun r => ?_⟩)
  all_goals
    obtain ⟨tag, kind, body⟩ := r
    have := Request.codeOk_eq_false_iff ⟨tag, kind, body⟩
    cases kind <;>
      simp [Serves, Completes, completedKind, Request.isKind, Request.isRow, Request.isFor, CodeUndefined] at this ⊢
    all_goals try (rw [this]; cases body <;> simp)

end Sys2Proof.Machine
end

