-- ==== Sys2Proof/Tests/Slice0.lean ====
section
/-! SUPPORT. Tests: ill-formed commands refused by the check, figures the spec works out, and for each statement with hypotheses a state
and operands that meet them, clause by clause. -/

set_option maxRecDepth 4000

namespace Sys2Proof.Tests

open Sys2Proof Sys2Proof.Machine

/-! ### Ill-formed commands -/

theorem test_wellFormed_frame :
    (Instr.frameReceived .site (List.replicate 262 0) .endMark).wellFormed = true ∧
      (Instr.frameReceived .site (List.replicate 263 0) .endMark).wellFormed = false := by decide

theorem test_wellFormed_record :
    (Instr.windowExpiry 47).wellFormed = true ∧ (Instr.windowExpiry 48).wellFormed = false ∧
      (Instr.callHangExpiry 48).wellFormed = false := by decide

theorem test_wellFormed_slot :
    (Instr.auditVisit 2047).wellFormed = true ∧ (Instr.auditVisit 2048).wellFormed = false ∧
      (Instr.siteLeftUpEntry 2048).wellFormed = false ∧ (Instr.siteRemovedEntry 2048).wellFormed = false ∧
      (Instr.stopHandoverEnd 2048).wellFormed = false := by decide

theorem test_wellFormed_site :
    (Instr.enable 1).wellFormed = true ∧ (Instr.enable 40).wellFormed = true ∧ (Instr.enable 0).wellFormed = false ∧
      (Instr.bar 41).wellFormed = false ∧ (Instr.remove 0).wellFormed = false ∧ (Instr.stallExpiry 41).wellFormed = false ∧
      (Instr.siteUpEgress 0).wellFormed = false ∧ (Instr.flush 41).wellFormed = false := by decide

/-! ### Figures of the spec -/

/-- The CRC of the nine characters 1 to 9 (R133). -/
theorem test_crc : crcTrailer [0x31, 0x32, 0x33, 0x34, 0x35, 0x36, 0x37, 0x38, 0x39] = [0x26, 0x39, 0xF4, 0xCB] := by decide

/-! ### States for the witnesses -/

def site (x : Nat) (st : SiteState) (s : State) : State :=
  s.putSite x { SiteRecord.default with state := st, lastHeartbeat := some 0 }

/-- RUN, both ports IN_SYNC; site 1 and 2 UP, 3 BARRED, 4 WAITING, 5 STALLED, the rest OFF. -/
def base : State :=
  site 1 .up (site 2 .up (site 3 .barred (site 4 .waiting (site 5 .stalled
    { State.reset with
      mgmt.run := .run
      loc.boundary := some 500
      classifier.sitePort := { inSync := true, badSymbols := 3 }
      classifier.corePort := { inSync := true, badSymbols := 0 } }))))

def cand (x score : Nat) : Candidate := { site := x, score := score, scoreEpoch := 0, heardEpoch := 0 }

def ent (st : RadioState) (serving : Nat) (cs : List Candidate) : Entry :=
  { radio := 9, cls := .ground, state := st, talkgroup := 1, serving := serving, number := 0, handover := none, dwell := 255
    shadow := 0, failed := none, emergency := false, cands := cs }

/-- A MOVING entry from site 1 to site 2. -/
def mov (h : Handover) : Entry := { ent .moving 1 [cand 1 500, cand 2 600] with handover := some h }

def toTwo : Handover := { target := 2, origin := .directed, retries := 0, age := 0, accepted := false }

/-- The base state with an entry in slot 0. -/
def withEntry (e : Entry) : State := base.writeEntry 0 (some e)

def hears (r : Report) (s : State) : State := { s with loc.reports := [r] }

def registers (r : Registration) (s : State) : State := { s with loc.frames := [.registration r] }

def acks (a : DirectiveAck) (s : State) : State := { s with loc.frames := [.ack a] }

def copyOf (q : Nat) (seq : BitVec 8) (t : CallType) : Copy :=
  { site := 1, radio := 9, callType := t, dest := 1, tag := 0, seq := seq, quality := q, endFlag := false, emergency := false
    payload := [] }

def callOf (o e : Bool) : CallRecord :=
  { radio := 9, tag := 0, callType := .group, dest := 1, seq := 0, isOpen := o, deadline := 0, best := none, copies := 1, endSeen := e
    emergencySeen := false, lastActivity := 0, hangDeadline := 0 }

def takes (c : Copy) (calls : Tab CallRecord) : State := { base with vote.inbox := [c], vote.calls := calls }

def asks (k : RequestKind) (body : List Byte) : State :=
  { base with mgmt.requests := [{ tag := 7, kind := k, body := body }] }

/-! ### Witnesses: the queue, resets, the line -/

theorem test_witness_StepTakesFrontCommand :
    ({ base with pending := [.siteTurn, .relay] } : State).pending = .siteTurn :: [.relay] ∧ base.pending = [] := by decide

theorem test_witness_EveryCommandAnswersNext :
    State.reset.vote.inbox = [] ∧ State.reset.vote.stopReport = false ∧ State.reset.loc.reports = [] ∧ State.reset.loc.frames = [] ∧
      State.reset.monitor.inbox = [] ∧ State.reset.reach.inbox = [] ∧ State.reset.mgmt.inbox = [] ∧
      State.reset.mgmt.requests = [] ∧ Completes .identify { tag := 0, kind := .identify, body := [] } := by
  refine ⟨rfl, rfl, rfl, rfl, rfl, rfl, rfl, rfl, rfl⟩

theorem test_base_canonical : TablesCanonical base := by unfold TablesCanonical; decide

theorem test_witness_PowerOnAndPinReset :
    base.mgmt.lock = false ∧ ({ base with mgmt.lock := true } : State).mgmt.lock = true ∧
      TablesCanonical { base with mgmt.lock := true } := ⟨by decide, rfl, test_base_canonical⟩

theorem test_witness_CommandReset :
    Front (asks .reset [0]) { tag := 7, kind := .reset, body := [0] } [] ∧
      ([0] : List Byte) = [(asks .reset [0]).mgmt.unit.setWidth 8] ∧ TablesCanonical (asks .reset [0]) ∧
      Front (asks .reset [1]) { tag := 7, kind := .reset, body := [1] } [] ∧ (1 : Byte) ≠ (asks .reset [1]).mgmt.unit.setWidth 8 :=
  ⟨rfl, by decide, test_base_canonical, rfl, by decide⟩

theorem test_witness_SyncGainedAndLost :
    State.reset.classifier.sitePort.inSync = false ∧ State.reset.classifier.corePort.inSync = false ∧
      base.classifier.sitePort.inSync = true ∧ base.classifier.corePort.inSync = true ∧
      ¬SyncLossCause.noSignal = .invalidSymbols ∧
      4 ≤ ({ base with classifier.sitePort.badSymbols := 4 } : State).classifier.sitePort.badSymbols ∧
      4 ≤ ({ base with classifier.corePort.badSymbols := 4 } : State).classifier.corePort.badSymbols := by decide

theorem test_base_takes : PortTakes base .site ∧ PortTakes base .core := by unfold PortTakes; decide

theorem test_witness_FramingFaultsCounted :
    PortTakes base .site ∧ (base.portState .site).badSymbols = 3 ∧ (State.reset.portState .core).inSync = false :=
  ⟨test_base_takes.1, by decide, by decide⟩

theorem test_witness_FrameBytesCheckedInOrder :
    PortTakes base .site ∧ FrameEnd.idle ≠ .endMark ∧ (List.replicate 6 (0 : Byte)).length < 7 ∧
      262 < (List.replicate 263 (0 : Byte)).length ∧ ([1, 2, 0] : List Byte).length ≠ (2 : Byte).toNat ∧
      ([0, 0, 0, 0] : List Byte) ≠ crcTrailer (0x13 :: 0 :: 3 :: [1, 2, 0]) ∧ 0x22 ∉ kindsOf .site ∧ 0x14 ∈ kindsOf .site ∧
      ¬FormatRight 0x14 [1, 0, 0, 9, 0, 2] ∧ FormatRight 0x14 [1, 0, 0, 9, 0, 1] ∧
      FormatRight 0x23 (1 :: 64 :: List.replicate 64 0) ∧ ¬FormatRight 0x23 (1 :: 65 :: List.replicate 65 0) ∧
      FormatRight 0x41 (0 :: 7 :: 10 :: 240 :: List.replicate 240 0) ∧ ¬FormatRight 0x41 [0, 7, 11, 0] :=
  ⟨test_base_takes.1, by decide, by decide, by decide, by decide, by decide, by decide, by decide, by unfold FormatRight; decide,
    by unfold FormatRight; decide, by unfold FormatRight; decide, by unfold FormatRight; decide, by unfold FormatRight; decide,
    by unfold FormatRight; decide⟩

theorem test_witness_AcceptedFrameRouted :
    PortTakes base .site ∧ readFrame .site (frameBytes 0x13 0 [3, 2, 1]) .endMark = .ok (0, .heartbeat ⟨3, 2, true⟩) ∧
      FramePasses base 0 (.heartbeat ⟨3, 2, true⟩) ∧
      readFrame .core (frameBytes 0x41 0 [0, 7, 1, 0]) .endMark = .ok (0, .request ⟨7, .identify, []⟩) ∧
      FramePasses base 0 (.request ⟨7, .identify, []⟩) := by
  refine ⟨test_base_takes.1, by rfl, ⟨?_, ?_, ?_⟩, by rfl, ⟨?_, ?_, ?_⟩⟩
  · intro r h; cases h
  · intro x h; cases h; exact ⟨by decide, by decide, fun _ => Or.inl ⟨_, rfl⟩⟩
  · intro r h; cases h
  · intro r h; cases h
  · intro x h; cases h
  · intro r h; decide

theorem test_witness_RefusedFrameCounted :
    readFrame .site (frameBytes 0x14 0 [1, 0, 0, 0, 5, 0]) .endMark = .ok (0, .ack ⟨1, 0, 5, true⟩) ∧
      readFrame .site (frameBytes 0x13 0 [41, 0, 0]) .endMark = .ok (0, .heartbeat ⟨41, 0, false⟩) ∧
      readFrame .site (frameBytes 0x13 0 [6, 0, 0]) .endMark = .ok (0, .heartbeat ⟨6, 0, false⟩) ∧ (base.site 6).state = .off ∧
      readFrame .site (frameBytes 0x14 0 [3, 0, 0, 9, 5, 1]) .endMark = .ok (0, .ack ⟨3, 9, 5, false⟩) ∧
      (base.site 3).state = .barred ∧
      readFrame .core (frameBytes 0x41 1 [0, 7, 1, 0]) .endMark = .ok (1, .request ⟨7, .identify, []⟩) ∧
      (1 : Byte) ≠ base.mgmt.unit.setWidth 8 :=
  ⟨by rfl, by rfl, by rfl, by decide, by rfl, by decide, by rfl, by decide⟩

theorem test_witness_ReceivedFrameReadsBack :
    (ReceivedFrame.reception { copyOf 255 0 .group with dest := 0xFFFF, payload := List.replicate 64 0xFF }).fits = true ∧
      (ReceivedFrame.registration ⟨255, 9, 0xFFFE, 255, .powerOff⟩).fits = true ∧
      (ReceivedFrame.heartbeat ⟨255, 255, true⟩).fits = true ∧ (ReceivedFrame.ack ⟨255, 9, 255, false⟩).fits = true ∧
      (ReceivedFrame.downlink ⟨.ping, 0xFFFFFF, 0, 0, true, List.replicate 64 1⟩).fits = true ∧
      (ReceivedFrame.relay ⟨255, List.replicate 64 1⟩).fits = true ∧
      (ReceivedFrame.request ⟨7, .reset, List.replicate 240 1⟩).fits = true := by decide

/-! ### Witnesses: call voting -/

theorem test_witness_CopyReportedAndPassedInLoad :
    (takes (copyOf 10 0 .ping) []).vote.inbox = copyOf 10 0 .ping :: [] ∧ (copyOf 10 0 .group).callType ≠ .ping ∧
      ({ takes (copyOf 10 0 .group) [] with mgmt.run := .load } : State).mgmt.run = .load ∧
      adjustedQuality (takes (copyOf 10 0 .group) []) 1 10 = some 10 ∧ adjustedQuality (takes (copyOf 254 0 .group) []) 1 254 = some 63 ∧
      (copyOf 255 0 .group).quality = 255 := by decide

def someCalls (n : Nat) : Tab CallRecord := (List.range n).map fun k => (k, { callOf false false with radio := BitVec.ofNat 24 (100 + k) })

theorem test_witness_FirstCopyOpensWindow :
    (takes (copyOf 10 0 .group) (someCalls 47)).callOf 9 0 = none ∧ (someCalls 47).at? 47 = none ∧
      (∀ j < 47, ((someCalls 47).at? j).isSome = true) ∧ (takes (copyOf 10 0 .group) []).callOf 9 0 = none ∧
      (takes (copyOf 10 0 .group) []).mgmt.run = .run := by decide

theorem test_witness_FullCallTablePassesThrough :
    (takes (copyOf 10 0 .group) (someCalls 48)).callOf 9 0 = none ∧ (∀ j < 48, ((someCalls 48).at? j).isSome = true) ∧
      adjustedQuality (takes (copyOf 10 0 .group) (someCalls 48)) 1 10 = some 10 ∧ (copyOf 255 0 .group).quality = 255 := by decide

theorem test_witness_CopyEntersOpenWindow :
    (takes (copyOf 10 0 .group) [(3, callOf true false)]).callOf 9 0 = some (3, callOf true false) ∧
      (copyOf 10 0 .group).seq = (callOf true false).seq ∧ (callOf true false).isOpen = true := by decide

theorem test_witness_LateCopyCounted :
    (takes (copyOf 10 0 .group) [(3, callOf false false)]).callOf 9 0 = some (3, callOf false false) ∧
      (copyOf 10 0 .group).seq = (callOf false false).seq ∧ (callOf false false).isOpen = false ∧
      128 ≤ ((copyOf 10 128 .group).seq - (callOf true false).seq).toNat ∧
      128 ≤ ((copyOf 10 255 .group).seq - (callOf true false).seq).toNat := by decide

theorem test_witness_AheadCopyOpensNextWindow :
    (takes (copyOf 10 1 .group) [(0, callOf true true)]).callOf 9 0 = some (0, callOf true true) ∧
      1 ≤ ((copyOf 10 1 .group).seq - (callOf true true).seq).toNat ∧ ((copyOf 10 127 .group).seq - (callOf true true).seq).toNat ≤ 127 ∧
      (callOf false false).isOpen = false ∧ (callOf true false).endSeen = false ∧ (callOf true true).endSeen = true ∧
      ((takes (copyOf 10 1 .group) [(0, callOf true true)]).vote.calls.erase 0).at? 0 = none := by decide

theorem test_witness_WindowAndHangExpiry :
    Tab.at? [(3, callOf true false)] 3 = some (callOf true false) ∧ (callOf true false).deadline ≤ base.now ∧
      (callOf false false).isOpen = false ∧ base.now < { callOf true false with deadline := 1 }.deadline ∧
      (callOf false false).hangDeadline ≤ base.now ∧ base.now < { callOf true false with hangDeadline := 1 }.hangDeadline ∧
      Tab.at? [(3, callOf true false)] 4 = none := by decide

theorem test_witness_StopClosesOpenWindows :
    ({ takes (copyOf 10 0 .group) [(3, callOf true true), (5, callOf true false)] with vote.stopReport := true } : State).vote.stopReport =
        true ∧ Tab.sorted [(3, callOf true true), (5, callOf true false)] = true := by decide

/-! ### Witnesses: reports -/

theorem test_witness_LoadAndOffDiscards :
    (hears ⟨9, 1, 10, false⟩ base).loc.reports = ⟨9, 1, 10, false⟩ :: [] ∧
      (registers ⟨1, 9, 1, 10, .powerOn⟩ base).loc.frames = .registration ⟨1, 9, 1, 10, .powerOn⟩ :: [] ∧
      (acks ⟨1, 9, 0, true⟩ base).loc.frames = .ack ⟨1, 9, 0, true⟩ :: [] ∧ State.reset.mgmt.run = .load ∧ base.mgmt.run = .run ∧
      (base.site 6).state = .off := by decide

/-- A table with every slot occupied by an UNATTACHED entry. -/
def fullTable (emergency : Bool) : Tab Entry :=
  (List.range' 0 2048).map fun k => (k, { ent .unattached 0 [] with radio := BitVec.ofNat 24 (100 + k), emergency := emergency })

def full (emergency : Bool) : State := { base with loc.entries := fullTable emergency }

theorem test_full_entry (b : Bool) (j : Nat) :
    (full b).entry j =
      if j < 2048 then some { ent .unattached 0 [] with radio := BitVec.ofNat 24 (100 + j), emergency := b } else none := by
  have := Tab.at?_range' (fun k => { ent .unattached 0 [] with radio := BitVec.ofNat 24 (100 + k), emergency := b }) 0 2048 j
  simpa [State.entry, full, fullTable] using this

theorem test_full_noSlot : NoSlot (full true) := by
  refine ⟨fun j h => by simp [test_full_entry, h], fun p hp _ => ?_⟩
  obtain ⟨k, _, rfl⟩ := List.mem_map.mp hp
  rfl

theorem test_full_evicts : SlotFor (full false) 0 true := by
  refine ⟨Tab.sorted_range' _ 0 2048, fun j h => by simp [test_full_entry, h],
    { ent .unattached 0 [] with radio := 100, emergency := false }, by simp [test_full_entry], rfl, rfl, fun j w hw _ _ hj => ?_⟩
  rw [test_full_entry] at hw
  split at hw
  · cases hw
    exact Or.inr ⟨rfl, Nat.pos_of_ne_zero hj⟩
  · cases hw

theorem test_full_lookup (b : Bool) : (full b).lookup 9 = none := by
  refine List.find?_eq_none.mpr fun p hp => ?_
  obtain ⟨k, hk, rfl⟩ := List.mem_map.mp hp
  have hk' : k < 2048 := by simpa using List.mem_range'_1.mp hk
  simp only [beq_iff_eq]
  intro h
  have := congrArg BitVec.toNat h
  simp at this
  omega

theorem test_base_slot : SlotFor base 0 false := ⟨by decide, by decide, fun j h => absurd h (Nat.not_lt_zero j)⟩

theorem test_witness_ReportCreatesEntry :
    (base.site 1).state ≠ .off ∧ base.lookup 9 = none ∧ adjustedQuality base 1 63 = some 63 ∧ adjustedQuality base 1 0 = some 0 ∧
      SlotFor base 0 false ∧ SlotFor (full false) 0 true ∧ NoSlot (full true) ∧ (full true).lookup 9 = none := by
  exact ⟨by decide, by decide, by decide, by decide, test_base_slot, test_full_evicts, test_full_noSlot, test_full_lookup true⟩

theorem test_classOf :
    classOf [(15, ⟨9, 9, .command, true⟩)] 9 = .command ∧ classOf [(15, ⟨9, 9, .command, false⟩)] 9 = .ground ∧
      classOf [(0, ⟨1, 8, .aircraft, true⟩), (15, ⟨1, 9, .command, true⟩)] 8 = .aircraft := by decide

def five : List Candidate := [cand 1 500, cand 2 600, cand 3 100, cand 4 100, cand 5 900]

/-- A list of five whose victim is site 4, the higher of two equal scores. -/
theorem test_victim : Victim (withEntry (ent .attached 1 five)) (ent .attached 1 five) (cand 4 100) := by
  unfold Victim
  refine ⟨by decide, ⟨by decide, by intro h; simp [ent]⟩, ?_⟩
  intro c hc hr hne
  have hc' : c = cand 1 500 ∨ c = cand 2 600 ∨ c = cand 3 100 ∨ c = cand 4 100 ∨ c = cand 5 900 := by
    simpa [ent, five] using hc
  rcases hc' with h | h | h | h | h <;> subst h
  · exact absurd rfl hr.1
  · left; decide
  · right; decide
  · exact absurd rfl hne
  · left; decide

theorem test_witness_candidates_held :
    CandidatesAfter (withEntry (ent .attached 1 five)) (ent .attached 1 five) 5 (some 63) false
      (scored (withEntry (ent .attached 1 five)) (ent .attached 1 five) 5 (some 63)) := by rfl

theorem test_witness_candidates_added :
    CandidatesAfter (withEntry (ent .attached 1 [cand 1 500])) (ent .attached 1 [cand 1 500]) 2 (some 0) false
        [cand 1 500, cand 2 0] ∧
      CandidatesAfter (withEntry (ent .attached 1 [cand 1 500])) (ent .attached 1 [cand 1 500]) 2 none false [cand 1 500] :=
  ⟨rfl, rfl⟩

theorem test_witness_candidates_full :
    CandidatesAfter (withEntry (ent .attached 1 five)) (ent .attached 1 five) 7 (some 7) false
        [cand 1 500, cand 2 600, cand 3 100, cand 5 900, cand 7 112] ∧
      CandidatesAfter (withEntry (ent .attached 1 five)) (ent .attached 1 five) 7 (some 6) false five ∧
      CandidatesAfter (withEntry (ent .attached 1 five)) (ent .attached 1 five) 7 (some 0) true
        [cand 1 500, cand 2 600, cand 3 100, cand 5 900, cand 7 0] :=
  ⟨⟨_, test_victim, by decide⟩, ⟨_, test_victim, by decide⟩, ⟨_, test_victim, by decide⟩⟩

theorem test_holds (e : Entry) (h : e.radio = 9) : Holds (withEntry e) 9 0 e := by
  refine ⟨rfl, ?_⟩
  simp [State.lookup, withEntry, State.writeEntry, base, site, State.putSite, State.reset, Tab.insert, h]

theorem test_occupied (e : Entry) : Occupied (withEntry e) 0 e := ⟨rfl, State.entry_writeEntry_self ..⟩

theorem test_witness_ReportUpdatesEntry :
    Holds (withEntry (ent .shadow 1 [cand 1 500])) 9 0 (ent .shadow 1 [cand 1 500]) ∧
      (withEntry (ent .shadow 1 [cand 1 500])).mgmt.run = .run ∧
      ((withEntry (ent .shadow 1 [cand 1 500])).site 1).state = .up ∧ (10 : Nat) ≠ 255 ∧
      CandidatesAfter (withEntry (ent .shadow 1 [cand 1 500])) (ent .shadow 1 [cand 1 500]) 1
        (adjustedQuality (withEntry (ent .shadow 1 [cand 1 500])) 1 10) false
        (scored (withEntry (ent .shadow 1 [cand 1 500])) (ent .shadow 1 [cand 1 500]) 1
          (adjustedQuality (withEntry (ent .shadow 1 [cand 1 500])) 1 10)) :=
  ⟨test_holds _ rfl, by decide, by decide, by decide, rfl⟩

/-! ### Witnesses: the roam decision -/

def shadowed : Entry := ent .shadow 5 [cand 1 500, cand 2 600, cand 5 100]

/-- Site 2 is the best target of the SHADOW entry, at 600 against 500. -/
theorem test_best (s : State) (hs : s.monitor = base.monitor) (hp : s.loc.policies = base.loc.policies) (he : s.loc.epoch = 0)
    (hl : s.load 1 < 2048 ∧ s.load 2 < 2048) : BestTarget s shadowed (cand 2 600) := by
  have h1 : s.site 1 = base.site 1 := by simp [State.site, hs]
  have h2 : s.site 2 = base.site 2 := by simp [State.site, hs]
  have e1 : effective s shadowed (cand 1 500) = 500 := by simp [effective, State.policy, hp, he, cand]
  have e2 : effective s shadowed (cand 2 600) = 600 := by simp [effective, State.policy, hp, he, cand]
  have b1 : (base.site 1).cfg = SiteConfig.default := by decide
  have b2 : (base.site 2).cfg = SiteConfig.default := by decide
  refine ⟨by decide, ⟨by decide, ?_, ?_, ?_, by intro f h; cases h⟩, ?_⟩
  · show (s.site 2).state = .up
    rw [h2]; decide
  · show s.load 2 < (s.site 2).cfg.roamInLimit
    rw [h2, b2]; exact hl.2
  · rw [e2]; simp only [State.policy, hp]; decide
  · intro c hc hel hne
    have hc' : c = cand 1 500 ∨ c = cand 2 600 ∨ c = cand 5 100 := by simpa [shadowed, ent] using hc
    rcases hc' with h | h | h <;> subst h
    · left
      simp only [decision, e1, e2]
      show (500 : Int) + (s.site 1).cfg.bias < 600 + (s.site 2).cfg.bias
      rw [h1, h2, b1, b2]; decide
    · exact absurd rfl hne
    · exact absurd rfl hel.1

theorem test_witness_RoamDecisionTaken_shadow :
    (withEntry shadowed).entry 0 = some shadowed ∧ BestTarget (withEntry shadowed) shadowed (cand 2 600) ∧
      shadowed.state = .shadow ∧ LaneTakes (withEntry shadowed) 2 :=
  ⟨State.entry_writeEntry_self .., test_best _ rfl rfl rfl (by decide), rfl, by unfold LaneTakes; decide⟩

/-- The state with the control lane of site 2 full. -/
def fullLane (s : State) : State := { s with egress.control := [(2, List.replicate 16 (.relay ⟨2, []⟩))], egress.poolUsed := 16 }

theorem test_witness_RoamDecisionTaken_fullLane :
    BestTarget (fullLane (withEntry shadowed)) shadowed (cand 2 600) ∧ ¬LaneTakes (fullLane (withEntry shadowed)) 2 :=
  ⟨test_best _ rfl rfl rfl (by decide), by unfold LaneTakes; decide⟩

theorem test_witness_RoamDecisionTaken_none :
    (withEntry (ent .unattached 0 [])).entry 0 = some (ent .unattached 0 []) ∧ (mov toTwo).state = .moving ∧
      ∀ c ∈ (ent .attached 1 [cand 1 500, cand 4 900]).cands,
        ¬EligibleTarget (withEntry (ent .attached 1 [cand 1 500, cand 4 900])) (ent .attached 1 [cand 1 500, cand 4 900]) c := by
  refine ⟨State.entry_writeEntry_self .., rfl, ?_⟩
  intro c hc h
  have hc' : c = cand 1 500 ∨ c = cand 4 900 := by simpa [ent] using hc
  rcases hc' with e | e <;> subst e
  · exact h.1 rfl
  · exact absurd h.2.1 (by decide)

/-- From ATTACHED: hysteresis 64 is met exactly, and not met one lower. -/
theorem test_witness_RoamDecisionTaken_attached :
    AttachedTakes (withEntry (ent .attached 1 [cand 1 500, cand 2 564])) (ent .attached 1 [cand 1 500, cand 2 564]) (cand 2 564) ∧
      ¬AttachedTakes (withEntry (ent .attached 1 [cand 1 500, cand 2 563])) (ent .attached 1 [cand 1 500, cand 2 563]) (cand 2 563) := by
  refine ⟨⟨⟨cand 1 500, by decide, by decide⟩, by decide, rfl⟩, ?_⟩
  rintro ⟨⟨v, hv, h⟩, -⟩
  have : candOf 1 (ent .attached 1 [cand 1 500, cand 2 563]).cands = some (cand 1 500) := by decide
  rw [show (ent .attached 1 [cand 1 500, cand 2 563]).serving = 1 from rfl, this] at hv
  cases hv
  exact absurd h (by decide)

/-! ### Witnesses: registrations and acknowledgements -/

def reg (x : Nat) (why : RegReason) : Registration := { site := x, radio := 9, talkgroup := 3, quality := 255, reason := why }

/-- The premises of a registration's statements but for the entry's own state. -/
theorem test_registers (e : Entry) (r : Registration) (h : e.radio = 9) :
    (registers r (withEntry e)).loc.frames = .registration r :: [] ∧ (registers r (withEntry e)).mgmt.run = .run ∧
      Holds (registers r (withEntry e)) 9 0 e := ⟨rfl, rfl, test_holds e h⟩

theorem test_witness_RegistrationAttaches :
    CandidatesAfter (registers (reg 1 .siteChange) (withEntry (ent .unattached 0 []))) (ent .unattached 0 []) 1
        (some (registeredQuality (registers (reg 1 .siteChange) (withEntry (ent .unattached 0 []))) (reg 1 .siteChange))) true
        [cand 1 0] ∧
      (base.site 1).state = .up ∧ (ent .attached 1 [cand 1 500]).serving = 1 ∧ (ent .shadow 1 [cand 1 500]).state = .shadow ∧
      (ent .attached 2 [cand 2 500]).serving ≠ 1 ∧ (base.site 4).state ≠ .off ∧ (base.site 4).state ≠ .up :=
  ⟨rfl, by decide, rfl, rfl, by decide, by decide, by decide⟩

theorem test_witness_RegistrationEndsHandover :
    (mov toTwo).state = .moving ∧ (mov toTwo).handover = some toTwo ∧ (reg 2 .siteChange).site = toTwo.target ∧
      (reg 1 .powerOn).site = (mov toTwo).serving ∧ (reg 1 .powerOn).site ≠ toTwo.target ∧
      ({ mov toTwo with serving := 5 }).serving ≠ (reg 1 .powerOn).site ∧
      CandidatesAfter (registers (reg 2 .siteChange) (withEntry (mov toTwo))) (mov toTwo) 2
        (some (registeredQuality (registers (reg 2 .siteChange) (withEntry (mov toTwo))) (reg 2 .siteChange))) true
        (scored (registers (reg 2 .siteChange) (withEntry (mov toTwo))) (mov toTwo) 2 (some 0)) :=
  ⟨rfl, rfl, rfl, rfl, by decide, by decide, rfl⟩

theorem test_witness_RegistrationOfUnknownRadio :
    (registers (reg 1 .powerOn) base).lookup 9 = none ∧ ((registers (reg 1 .powerOn) base).site 1).state = .up ∧
      SlotFor (registers (reg 1 .powerOn) base) 0 false ∧ SlotFor (registers (reg 1 .powerOn) (full false)) 0 true ∧
      NoSlot (registers (reg 4 .powerOn) (full true)) ∧ (registers (reg 4 .powerOn) (full true)).lookup 9 = none ∧
      (base.site 4).state ≠ .up ∧ (base.site 4).state ≠ .off ∧ (reg 1 .powerOff).reason = .powerOff :=
  ⟨by decide, by decide, test_base_slot, test_full_evicts, test_full_noSlot, test_full_lookup true, by decide, by decide, rfl⟩

theorem test_witness_PowerOffRegistration :
    Holds (registers (reg 1 .powerOff) (withEntry (mov toTwo))) 9 0 (mov toTwo) ∧
      CandidatesAfter (registers (reg 1 .powerOff) (withEntry (mov toTwo))) (mov toTwo) 1
        (some (registeredQuality (registers (reg 1 .powerOff) (withEntry (mov toTwo))) (reg 1 .powerOff))) true
        (scored (registers (reg 1 .powerOff) (withEntry (mov toTwo))) (mov toTwo) 1 (some 0)) ∧
      ({ mov toTwo with emergency := true }).emergency = true ∧ (mov toTwo).emergency = false :=
  ⟨test_holds _ rfl, rfl, rfl, rfl⟩

theorem test_witness_AcknowledgementMatched :
    Holds (acks ⟨2, 9, 0, false⟩ (withEntry (mov toTwo))) 9 0 (mov toTwo) ∧ (2 : Nat) = toTwo.target ∧
      (0 : BitVec 8) = (mov toTwo).number ∧ (1 : Nat) ≠ toTwo.target ∧ (255 : BitVec 8) ≠ (mov toTwo).number ∧
      base.lookup 9 = none ∧ (ent .attached 1 [cand 1 500]).state ≠ .moving ∧ (base.site 2).state ≠ .off :=
  ⟨test_holds _ rfl, rfl, rfl, by decide, by decide, by decide, by decide, by decide⟩

theorem test_witness_AbandonEffect :
    ({ mov toTwo with serving := 0 }).serving = 0 ∧ (mov toTwo).serving ≠ 0 ∧
      candOf (mov toTwo).serving (mov toTwo).cands = some (cand 1 500) ∧ ((withEntry (mov toTwo)).site 1).state = .up ∧
      age 5 (cand 1 500).heardEpoch < ((withEntry (mov toTwo)).policy (mov toTwo)).shadowHold ∧
      ((withEntry (mov toTwo)).policy (mov toTwo)).shadowHold ≤ age 6 (cand 1 500).heardEpoch := by decide

/-! ### Witnesses: the audit pass, site changes, STOP -/

theorem test_witness_EpochBoundaryAdvances :
    ({ base with now := 500 } : State).loc.boundary = some 500 ∧ base.mgmt.run = .run ∧ (500 : Nat) ≤ ({ base with now := 500 } : State).now ∧
      base.loc.visits = [] ∧ base.now < 500 ∧ State.reset.mgmt.run = .load ∧ State.reset.loc.boundary = none ∧
      ({ base with loc.visits := [0] } : State).loc.visits ≠ [] := by decide

def visiting (epoch : Epoch) (e : Entry) : State := { withEntry e with loc.visits := [0], loc.epoch := epoch }

theorem test_visiting (epoch : Epoch) (e : Entry) :
    (visiting epoch e).mgmt.run = .run ∧ 0 ∈ (visiting epoch e).loc.visits ∧ Occupied (visiting epoch e) 0 e :=
  ⟨rfl, List.mem_singleton.mpr rfl, test_occupied e⟩

theorem test_witness_AuditOfSettledEntry :
    PurgeDue (visiting 240 (ent .unattached 0 [])) (audited (visiting 240 (ent .unattached 0 [])) (ent .unattached 0 [])) ∧
      ¬PurgeDue (visiting 19 (ent .unattached 0 [cand 1 500]))
        (audited (visiting 19 (ent .unattached 0 [cand 1 500])) (ent .unattached 0 [cand 1 500])) ∧
      candOf 1 (audited (visiting 6 (ent .attached 1 [cand 1 500])) (ent .attached 1 [cand 1 500])).cands = some (cand 1 500) ∧
      (audited (visiting 6 { ent .shadow 1 [cand 1 500] with shadow := 38 }) { ent .shadow 1 [cand 1 500] with shadow := 38 }).shadow <
        ((visiting 6 (ent .shadow 1 [])).policy (ent .shadow 1 [])).lostLimit ∧
      ((visiting 6 (ent .shadow 1 [])).policy (ent .shadow 1 [])).lostLimit ≤
        (audited (visiting 6 { ent .shadow 1 [cand 1 500] with shadow := 39 }) { ent .shadow 1 [cand 1 500] with shadow := 39 }).shadow ∧
      PurgeDue (visiting 240 { ent .shadow 1 [cand 1 500] with shadow := 39 })
        (audited (visiting 240 { ent .shadow 1 [cand 1 500] with shadow := 39 }) { ent .shadow 1 [cand 1 500] with shadow := 39 }) ∧
      1 ∉ (visiting 6 (ent .unattached 0 [])).loc.visits := by unfold PurgeDue; decide

theorem test_witness_AuditOfMovingEntry :
    (audited (visiting 6 (mov { toTwo with age := 2 })) (mov { toTwo with age := 2 })).handover = some { toTwo with age := 3 } ∧
      3 < ((visiting 6 (mov toTwo)).policy (mov toTwo)).roamTimeout ∧
      ((visiting 6 (mov toTwo)).policy (mov toTwo)).roamTimeout ≤ 4 ∧ 1 < ((visiting 6 (mov toTwo)).policy (mov toTwo)).retryLimit ∧
      ((visiting 6 (mov toTwo)).policy (mov toTwo)).retryLimit ≤ 2 ∧ (mov toTwo).serving ≠ 0 ∧
      ¬PurgeDue (visiting 239 { mov toTwo with serving := 0 }) (audited (visiting 239 { mov toTwo with serving := 0 }) { mov toTwo with serving := 0 }) ∧
      PurgeDue (visiting 240 { mov toTwo with serving := 0 }) (audited (visiting 240 { mov toTwo with serving := 0 }) { mov toTwo with serving := 0 }) := by
  unfold PurgeDue; decide

def told (n : SiteNews) (x : Nat) (e : Entry) : State := { withEntry e with loc.siteReports := [{ slot := 0, site := x, news := n }] }

theorem test_told (n : SiteNews) (x : Nat) (e : Entry) :
    (told n x e).nextEntryReport 0 = some { slot := 0, site := x, news := n } ∧ Occupied (told n x e) 0 e := ⟨rfl, test_occupied e⟩

theorem test_witness_SiteLeftUpAtEntry :
    (ent .attached 5 [cand 5 1]).state = .attached ∧ (ent .attached 5 [cand 5 1]).serving = 5 ∧ (mov toTwo).handover = some toTwo ∧
      toTwo.target = 2 ∧ (ent .attached 1 [cand 1 1]).serving ≠ 5 ∧ (∀ h, (mov toTwo).handover = some h → h.target ≠ 5) ∧
      ∀ r, (told .removed 5 (mov toTwo)).nextEntryReport 0 = some r → r.news ≠ .leftUp := by
  refine ⟨rfl, rfl, rfl, rfl, by decide, ?_, ?_⟩
  · intro h hh; cases hh; decide
  · intro r hr; cases hr; decide

theorem test_witness_SiteRemovedAtEntry :
    (ent .shadow 5 [cand 5 1]).state = .shadow ∧ (ent .attached 5 [cand 5 1]).serving = 5 ∧ toTwo.target = 2 ∧
      (mov toTwo).serving = 1 ∧ toTwo.target ≠ 1 ∧ (ent .unattached 0 [cand 5 1]).state = .unattached ∧
      (ent .attached 1 [cand 1 1, cand 5 1]).serving ≠ 5 ∧
      ∀ r, (told .leftUp 5 (mov toTwo)).nextEntryReport 0 = some r → r.news ≠ .removed := by
  refine ⟨rfl, rfl, rfl, rfl, by decide, rfl, by decide, ?_⟩
  intro r hr; cases hr; decide

theorem test_witness_StopEndsHandover :
    0 ∈ ({ withEntry (mov toTwo) with loc.stopReports := [0] } : State).loc.stopReports ∧ Occupied (withEntry (mov toTwo)) 0 (mov toTwo) ∧
      ({ mov toTwo with serving := 0 }).serving = 0 ∧ (base.site 1).state = .up ∧ (base.site 5).state ≠ .up ∧
      1 ∉ ({ withEntry (mov toTwo) with loc.stopReports := [0] } : State).loc.stopReports :=
  ⟨by decide, test_occupied _, rfl, by decide, by decide, by decide⟩

/-! ### Witnesses: sites -/

def beats (x : Nat) : State := { base with monitor.inbox := [{ site := x, credits := 255, alarm := true }], now := 2999 }

theorem test_witness_HeartbeatTaken :
    (beats 6).monitor.inbox = { site := 6, credits := 255, alarm := true } :: [] ∧ ((beats 6).site 6).state = .off ∧
      ((beats 1).site 1).state = .up ∧ ((beats 3).site 3).state = .barred ∧ ((beats 4).site 4).state = .waiting ∧
      ((beats 4).site 4).run + 1 < ((beats 4).site 4).cfg.recoveryCount ∧
      (({ site 5 .stalled base with now := 2999 } : State).site 5).state = .stalled ∧
      (({ base.putSite 5 { base.site 5 with run := 2 } with now := 2999 } : State).site 5).cfg.recoveryCount ≤
        (({ base.putSite 5 { base.site 5 with run := 2 } with now := 2999 } : State).site 5).run + 1 := by decide

theorem test_beats_canonical : TablesCanonical { base.putSite 5 { base.site 5 with run := 2 } with now := 2999 } := by
  unfold TablesCanonical; decide

theorem test_witness_StallExpiryStalls :
    (base.site 1).state = .up ∧ (base.site 1).lastHeartbeat = some 0 ∧
      0 + (base.site 1).cfg.stallLimit ≤ ({ base with now := 3000 } : State).now ∧
      ({ base with now := 2999 } : State).now < 0 + (base.site 1).cfg.stallLimit ∧ (base.site 4).state ≠ .up := by decide

theorem test_witness_AdminActions :
    validSite 1 = true ∧ validSite 40 = true ∧ (base.site 1).state = .up ∧ (base.site 3).state = .barred ∧
      (base.site 4).state = .waiting ∧ (base.site 5).state = .stalled ∧ (base.site 40).state = .off := by decide

/-! ### Witnesses: reach and egress -/

def down (t : CallType) (dest : BitVec 24) : Downlink := { callType := t, dest := dest, tag := 0, seq := 0, endFlag := false, payload := [] }

theorem test_witness_ReachFramesTaken :
    ({ base with reach.inbox := [.downlink (down .group 1), .relay ⟨3, []⟩] } : State).reach.inbox =
        .downlink (down .group 1) :: [.relay ⟨3, []⟩] ∧
      ((List.range' 1 40).filter fun x => reaches base (down .group 1) x) = [1, 2] ∧
      ((List.range' 1 40).filter fun x => reaches State.reset (down .all 0) x) = [] ∧ flooded base (down .individual 9) = true ∧
      (base.site 3).state = .barred ∧ (base.site 4).state ≠ .barred ∧ (base.site 6).state = .off ∧
      ({ base with reach.inbox := [.relay ⟨2, []⟩] } : State).reach.inbox = .relay ⟨2, []⟩ :: [] := by decide

theorem test_witness_lanes : LaneTakes base 4 ∧ ¬LaneTakes (fullLane base) 2 := by unfold LaneTakes; decide

theorem test_witness_LaneAndCoreAdmission :
    (base.site 6).state = .off ∧ (base.site 3).state = .barred ∧ (base.site 1).state ≠ .off ∧ (base.site 1).state ≠ .barred := by decide

def sends (s : State) : State :=
  { s with
    egress.control := [(1, [.relay ⟨1, []⟩])]
    egress.voice := [(2, [⟨2, down .group 1⟩, ⟨2, down .group 1⟩])]
    egress.poolUsed := 4
    egress.credits := [(1, 1), (2, 2)]
    egress.core := [.response ⟨7, .ok, []⟩] }

theorem test_witness_TransmittersTakeAndSend :
    (sends base).egress.siteTx = none ∧ TurnReady (sends base) (((sends base).egress.pointer + 0) % 40 + 1) ∧
      (sends base).controlLane 1 = .relay ⟨1, []⟩ :: [] ∧
      ¬TurnReady ({ sends base with egress.control := [] } : State) (((sends base).egress.pointer + 0) % 40 + 1) ∧
      TurnReady ({ sends base with egress.control := [] } : State) (((sends base).egress.pointer + 1) % 40 + 1) ∧
      (sends base).controlLane 2 = [] ∧ (sends base).egress.coreTx = none ∧
      (sends base).egress.core = .response ⟨7, .ok, []⟩ :: [] ∧ ¬TurnReady base 1 ∧ base.egress.core = [] ∧
      ({ base with egress.siteTx := some ⟨1, []⟩ } : State).egress.siteTx ≠ none := by unfold TurnReady; decide

theorem test_witness_FlushAndSiteChanges :
    ({ base with egress.reports := [⟨1, .flush⟩, ⟨2, .up⟩] } : State).nextEgressReport 1 = some { site := 1, news := .flush } ∧
      ({ base with egress.reports := [⟨1, .flush⟩, ⟨2, .up⟩] } : State).nextEgressReport 2 = some { site := 2, news := .up } ∧
      base.nextEgressReport 1 = none := by decide

/-! ### Witnesses: management -/

def requestOf (k : RequestKind) (body : List Byte) : Request := { tag := 7, kind := k, body := body }

theorem test_front (k : RequestKind) (body : List Byte) : Front (asks k body) (requestOf k body) [] := rfl

theorem test_unheld (k : RequestKind) (body : List Byte) : Unheld (asks k body) := ⟨rfl, rfl⟩

def inBatch (s : State) : State := { s with mgmt.batch := some { tag := 9, items := 1, applied := 0, rest := [[5, 0, 0, 1, 2, 3, 4, 5]] } }

theorem test_witness_RequestsQueuedAndChecked_queue :
    ({ base with mgmt.inbox := [requestOf .status []], mgmt.requests := List.replicate 3 (requestOf .status []) } : State).mgmt.requests.length <
        4 ∧ 4 ≤ (List.replicate 4 (requestOf .status [])).length := by decide

/-- A request of each outcome: no code at all and a byte too many, an undefined code during a batch, an undefined code under LOCK, a
WRITE under LOCK, and a row that is not the request's. -/
theorem test_witness_RequestsQueuedAndChecked :
    (Serves .readCall (requestOf .read []) ∧ (requestOf .read []).lengthOk = false) ∧
      (Serves .status (requestOf .status [1]) ∧ (requestOf .status [1]).lengthOk = false) ∧
      (Serves .floodOn (requestOf .control [6]) ∧ LengthRight (requestOf .control [6]) ∧
        (inBatch (asks .control [6])).mgmt.batch ≠ none) ∧
      (Serves .writeSite (requestOf .write [6]) ∧ CodeUndefined (requestOf .write [6]) ∧ LengthRight (requestOf .write [6]) ∧
        ({ asks .write [6] with mgmt.lock := true } : State).mgmt.batch = none) ∧
      (Serves .readRadio (requestOf .read [9]) ∧ CodeUndefined (requestOf .read [9]) ∧ LengthRight (requestOf .read [9])) ∧
      (Serves .stop (requestOf .control [2]) ∧ LengthRight (requestOf .control [2]) ∧ ¬CodeUndefined (requestOf .control [2]) ∧
        ({ asks .control [2] with mgmt.lock := true } : State).mgmt.lock = true) ∧
      completedKind .status = some .status ∧ ¬Serves .status (requestOf .read [9]) := by
  refine ⟨⟨Or.inr ⟨rfl, Or.inl rfl⟩, rfl⟩, ⟨Or.inl rfl, rfl⟩,
    ⟨Or.inr ⟨rfl, Or.inr ⟨6, [], rfl, Or.inr (by decide)⟩⟩, (Request.lengthOk_iff _).mp rfl, by decide⟩,
    ⟨Or.inr ⟨rfl, Or.inr ⟨6, [], rfl, Or.inr (by decide)⟩⟩, ⟨6, [], rfl, Or.inr (by decide)⟩, (Request.lengthOk_iff _).mp rfl, rfl⟩,
    ⟨Or.inr ⟨rfl, Or.inr ⟨9, [], rfl, Or.inr (by decide)⟩⟩, ⟨9, [], rfl, Or.inr (by decide)⟩, (Request.lengthOk_iff _).mp rfl⟩,
    ⟨Or.inl ⟨rfl, rfl⟩, (Request.lengthOk_iff _).mp rfl, ?_, rfl⟩, rfl, ?_⟩
  · rintro ⟨code, rest, h, hc⟩; cases h; exact absurd (show (2#8).toNat = 0 ∨ 5 < (2#8).toNat from hc) (by decide)
  · rintro (h | h)
    · cases h
    · cases h.1

theorem test_completes :
    Completes .status (requestOf .status [1]) ∧ Completes .lock (requestOf .control [3]) ∧ Completes .start (requestOf .control [1]) :=
  ⟨rfl, ⟨rfl, rfl⟩, ⟨rfl, rfl⟩⟩

theorem test_witness_ReadsAnswered :
    (requestOf .read [1, 0, 40]).body = [1, 0, 40] ∧ (0 : Byte).toNat * 256 + (40 : Byte).toNat = 40 ∧
      (0 : Byte).toNat * 256 + (255 : Byte).toNat = 255 ∧ (1 : Byte).toNat * 256 + (0 : Byte).toNat = 256 ∧
      (0xFF : Byte).toNat * 65536 + (0xFF : Byte).toNat * 256 + (0xFF : Byte).toNat = 0xFFFFFF ∧
      (0 : Byte).toNat * 65536 + (0x07 : Byte).toNat * 256 + (0xFF : Byte).toNat = 2047 ∧ 2 ≤ (2 : Byte).toNat := by decide

theorem test_witness_SettingsAndRangeRecordWritten :
    Unheld (asks .write [5, 0, 0, 64, 251, 1, 0, 0]) ∧ (requestOf .write [5, 0, 0, 64, 251, 1, 0, 0]).kind = .write ∧
      (requestOf .write [3, 0, 15, 0, 0, 1, 0xFF, 0xFF, 0xFE, 3, 1]).body = [3, 0, 15, 0, 0, 1, 0xFF, 0xFF, 0xFE, 3, 1] ∧
      (0xFF : Byte).toNat * 65536 + (0xFF : Byte).toNat * 256 + (0xFE : Byte).toNat ≠ 0xFFFFFF ∧ ¬3 < (3 : Byte).toNat ∧
      3 < (4 : Byte).toNat := by unfold Unheld; decide

theorem test_witness_GroupRowWritten :
    TablesCanonical base ∧ EntriesSound base ∧ (base.row 255).valid = false ∧
      ({ base with reach.rows := [(0, ⟨1, 0, false, true⟩)], loc.members := [(0, [(1, 1)])] } : State).memberCount 0 1 ≠ 0 ∧
      TablesCanonical { base with reach.rows := [(0, ⟨1, 0, false, true⟩)], loc.members := [(0, [(1, 1)])] } := by
  refine ⟨test_base_canonical, show ∀ p ∈ base.loc.entries, _ from fun p hp => (List.not_mem_nil (a := p) hp).elim, by decide, by decide, ?_⟩
  unfold TablesCanonical; decide

theorem test_witness_BatchItemsApplied :
    (requestOf .batch [1, 8, 5, 0, 0, 1, 2, 3, 4, 5]).items = some [[5, 0, 0, 1, 2, 3, 4, 5]] ∧
      (inBatch base).applyItem [5, 0, 0, 1, 2, 3, 4, 5] =
        ({ inBatch base with
            loc.timing := { epochAdjust := 1, voteHold := 2, callHang := 3, staleLimit := 4, purgeLimit := 5 } }, .ok) ∧
      (inBatch base).applyItem [5, 0, 1, 1, 2, 3, 4, 5] = (inBatch base, .badKey) ∧ base.mgmt.batch = none ∧
      writeLength (5 : Byte).toNat = some 5 ∧ (6 : Byte).toNat > 5 := by decide

theorem test_witness_ControlActions :
    Front (asks .control [2]) (requestOf .control [2]) [] ∧ (asks .control [2]).mgmt.batch = none ∧
      (asks .control [2]).mgmt.lock = false ∧ (asks .control [2]).mgmt.run = .run ∧
      ({ asks .control [1] with mgmt.run := .load } : State).mgmt.run = .load := ⟨rfl, rfl, rfl, rfl, rfl⟩

theorem test_witness_RadioActions :
    Holds { withEntry shadowed with mgmt.requests := [requestOf .radioAction [1, 0, 0, 9, 2]] } 9 0 shadowed ∧ base.lookup 9 = none ∧
      BitVec.ofNat 24 ((0 : Byte).toNat * 65536 + (0 : Byte).toNat * 256 + (9 : Byte).toNat) = 9 ∧ shadowed.state = .shadow ∧
      (ent .unattached 0 []).state = .unattached ∧ (2 : Byte).toNat ≠ shadowed.serving ∧ (base.site 2).state = .up ∧
      (candOf 2 shadowed.cands).isSome = true ∧ (candOf 7 (ent .attached 1 five).cands).isSome = false ∧
      (base.site 7).state ≠ .up :=
  ⟨test_holds _ rfl, by decide, by decide, rfl, rfl, by decide, by decide, by decide, by decide, by decide⟩

theorem test_witness_AckAlertsApplied :
    Front (asks .ackAlerts [0xFF, 1, 0, 0, 0, 0x80, 3, 0x0F]) (requestOf .ackAlerts [0xFF, 1, 0, 0, 0, 0x80, 3, 0x0F]) [] ∧
      DisabledFlagsClear (asks .ackAlerts [0xFF, 1, 0, 0, 0, 0x80, 3, 0x0F]) ∧
      inSet ((0x80 : Byte) ++ (0 : Byte) ++ (0 : Byte) ++ (0 : Byte) ++ (1 : Byte)) 1 = true ∧
      inSet ((0x80 : Byte) ++ (0 : Byte) ++ (0 : Byte) ++ (0 : Byte) ++ (1 : Byte)) 40 = true :=
  ⟨rfl, by unfold DisabledFlagsClear; decide, by decide, by decide⟩

/-- Turning on two classes whose conditions are true raises both: one ALERT for each, then the response. -/
theorem test_ack_offers_each_rise :
    let s : State :=
      { asks .ackAlerts [0, 0, 0, 0, 0, 0, 2, 0x0F] with mgmt.enables := 0, mgmt.flags := 0, mgmt.conditions := 0x06 }
    ∃ t, exec .ackAlerts s = .next t ∧
      t.egress.core =
        [.alert { cls := .siteAlarm, flags := 6, stalls := 0, epoch := s.loc.epoch },
          .alert { cls := .emergency, flags := 6, stalls := 0, epoch := s.loc.epoch }, .response ⟨7, .ok, []⟩] := ⟨_, rfl, by rfl⟩

/-- A STATUS body is the 27 bytes listed in table 9-9 (log 37), a CALL body its 17 (log 35). -/
theorem test_status_and_call_lengths :
    base.statusAnswer.2.length = 27 ∧ ((callOf true true).encode 0).length = 17 := by decide

theorem test_witness_AlertReportTaken :
    ((({ base with mgmt.alertReports := [⟨.linkError, true⟩] } : State).mgmt.alertReports.find? fun r =>
        decide (r.cls = .linkError)) = some { cls := .linkError, value := true }) ∧
      ∀ r ∈ base.mgmt.alertReports, r.cls ≠ .siteStall := by decide

theorem test_witness_CountersRaisedAndCleared :
    Front (asks .clearCounters []) (requestOf .clearCounters []) [] ∧ (asks .clearCounters []).mgmt.batch = none ∧
      (inBatch (asks .clearCounters [])).mgmt.batch ≠ none ∧ (CounterId.site 40 .recoveries).key = 1286 :=
  ⟨rfl, rfl, by decide, by decide⟩

/-! ### Witnesses: what every step keeps -/

/-- A part after reset with a command to take, which meets every law that a StepKeeps statement assumes. -/
theorem test_witness_StepKeepsLaws :
    let s : State := { State.reset with pending := [.syncGained .site], now := 1 }
    ConfigurationInRange s ∧ EntriesSound s ∧ EntryTableSound s ∧ InboxesSound s ∧ LoadLaw s ∧ CountLaw s ∧ EpochLaw s ∧ LockLaw s ∧
      CallsSound s ∧ PoolLaw s ∧ QueueCapacity s ∧ FiguresInRange s ∧ DisabledFlagsClear s := by
  refine ⟨⟨?_, ?_, ?_, ?_, ?_, ?_⟩, ?_, ⟨?_, ?_, ?_⟩, ⟨?_, ?_, ?_⟩, ?_, ?_, ⟨?_, ?_⟩, ?_, ⟨?_, ?_⟩, ⟨?_, ?_⟩, ⟨?_, ?_, ?_⟩,
    ⟨?_, ?_, ?_, ?_, ?_, ?_⟩, ?_⟩
  · intro p hp; cases hp
  · intro c; cases c <;> (unfold ClassPolicy.inRange; decide)
  · unfold Timing.inRange; decide
  · intro p hp; cases hp
  · intro p hp; cases hp
  · intro p hp; cases hp
  · intro p hp; cases hp
  · intro p hp; cases hp
  · decide
  · intro p hp; cases hp
  · intro p hp; cases hp
  · intro p hp; cases hp
  · intro p hp; cases hp
  · intro x _ _; rfl
  · intro k; exact ⟨fun x _ _ => rfl, rfl⟩
  · decide
  · intro _; rfl
  · intro h; cases h
  · intro p hp; cases hp
  · decide
  · decide
  · decide
  · intro x; exact Nat.zero_le _
  · intro x; exact Nat.zero_le _
  · decide
  · intro x; exact Nat.zero_le _
  · decide
  · decide
  · intro q; cases q <;> decide
  · intro x; exact ⟨Nat.zero_le _, Nat.zero_le _⟩
  · intro b hb; cases hb
  · unfold DisabledFlagsClear; decide

theorem test_witness_StepKeepsLaws_step :
    TablesCanonical { State.reset with pending := [.syncGained .site], now := 1 } ∧
      step { State.reset with pending := [.syncGained .site], now := 1 } =
        .next { State.reset with now := 1, classifier.sitePort := { inSync := true, badSymbols := 0 } } := by
  refine ⟨?_, rfl⟩
  unfold TablesCanonical; decide

theorem test_witness_LockKeepsConfiguration :
    TablesCanonical { base with mgmt.lock := true } ∧ ({ base with mgmt.lock := true } : State).mgmt.batch = none ∧
      step { base with mgmt.lock := true } = .next { base with mgmt.lock := true, now := 1 } ∧
      ({ base with mgmt.lock := true } : State).pending.head? = none := ⟨test_base_canonical, rfl, rfl, rfl⟩

end Sys2Proof.Tests
end

/-! The handover protocol at an entry: acknowledgements (R52) and the audit visit of a MOVING entry (R53, R54). -/

namespace Sys2Proof.Machine

/-! ### The conditions an event of the location engine reports -/

theorem State.reportChange_eq (c : AlertClass) (a b : Bool) (s : State) :
    s.reportChange c a b =
      { s with mgmt.alertReports := s.mgmt.alertReports ++ if a = b then [] else [{ cls := c, value := b }] } := by
  unfold State.reportChange
  split
  · rw [List.append_nil]
  · rfl

/-- The reports the model makes of an event are those the statements name. -/
theorem State.locEvent_eq (f : State → State) (s : State) : s.locEvent f = withConditions s (f s) := by
  simp only [State.locEvent, State.reportConditions, State.reportChange_eq, List.append_assoc]
  rfl

@[simp] theorem State.writeEntry_some_entries (k : Nat) (f : Entry) (s : State) :
    (s.writeEntry k (some f)).loc.entries = s.loc.entries.insert k f := rfl

theorem State.entry_of_entries_insert {k : Nat} {g : Entry} {s t : State} (h : t.loc.entries = s.loc.entries.insert k g) :
    t.entry k = some g := by
  rw [State.entry, h, Tab.at?_insert_self]

/-- An occupied slot written with the same emergency flag leaves both conditions as they were. -/
theorem withConditions_of_entries_insert {k : Nat} {e g : Entry} {s t : State} (hs : Occupied s k e)
    (ht : t.loc.entries = s.loc.entries.insert k g) (hg : g.emergency = e.emergency) : withConditions s t = t := by
  obtain ⟨hsorted, hk⟩ := hs
  have hany : s.anyEmergency = t.anyEmergency := by
    unfold State.anyEmergency
    rw [ht, Tab.any_insert_of_at? _ hsorted hk hg.symm]
  have hlen : t.loc.entries.length = s.loc.entries.length := by rw [ht, Tab.length_insert_of_at? g hsorted hk]
  simp [withConditions, conditionReports, hany, hlen]

/-- An event that leaves the table alone leaves both conditions as they were. -/
theorem withConditions_of_entries_eq {s t : State} (h : t.loc.entries = s.loc.entries) : withConditions s t = t := by
  simp [withConditions, conditionReports, State.anyEmergency, h]

/-! ### Abandoning a handover -/

/-- The state an abandoned handover leaves its entry in (R55). -/
def abandonState (s : State) (e : Entry) : RadioState :=
  if e.serving = 0 then .unattached
  else if s.siteUp e.serving && decide (servingHeardAge s.loc.epoch e < (s.policy e).shadowHold) then .attached
  else .shadow

/-- The entry an abandoned handover leaves (R55). -/
def abandoned (s : State) (e : Entry) (h : Handover) : Entry :=
  { e with
    handover := none
    failed := some { site := h.target, remaining := Config.failedEpochs }
    state := abandonState s e
    shadow := if abandonState s e = .shadow then 0 else e.shadow }

theorem State.abandon_entries (k : Nat) (e : Entry) (h : Handover) (s : State) :
    (s.abandon k e h).loc.entries = s.loc.entries.insert k (abandoned s e h) := by
  have habandon : s.abandon k e h =
      let s1 := ((s.cancel e h).writeEntry k (some (abandoned s e h))).notify .roamFailed e.radio e.serving h.target e.talkgroup
        h.origin.cause
      if abandonState s e = .shadow then s1.notifyShadow e else s1 := rfl
  rw [habandon]
  dsimp only
  split <;> simp

theorem State.abandon_entry (k : Nat) (e : Entry) (h : Handover) (s : State) :
    (s.abandon k e h).entry k = some (abandoned s e h) :=
  State.entry_of_entries_insert (State.abandon_entries k e h s)

theorem abandoned_state_eq_unattached_iff (s : State) (e : Entry) (h : Handover) :
    (abandoned s e h).state = .unattached ↔ e.serving = 0 := by
  change abandonState s e = .unattached ↔ e.serving = 0
  unfold abandonState
  split
  case isTrue hserving => exact iff_of_true rfl hserving
  case isFalse hserving => split <;> simp [hserving]

/-! ### Acknowledgements -/

/-- DIRECTIVE_ACK in RUN, from a site that is not OFF: the oldest frame is taken and applied. -/
theorem exec_directiveAck_of_ack {s : State} {a : DirectiveAck} {rest : List LocationFrame} (hf : s.loc.frames = .ack a :: rest)
    (hrun : s.mgmt.run = .run) (hsite : (s.site a.site).state ≠ .off) :
    exec .directiveAck s = .next (withConditions (frameTaken s rest) ((frameTaken s rest).applyAck a)) := by
  have hnotLoad : ¬(frameTaken s rest).mgmt.run = .load := by simp [frameTaken, hrun]
  have hnotOff : ¬((frameTaken s rest).site a.site).state = .off := hsite
  have hexec : exec .directiveAck s = .next ((frameTaken s rest).locEvent fun t => t.intake a.site fun t => t.applyAck a) := by
    change execDirectiveAck s = _
    unfold execDirectiveAck
    rw [hf]
    rfl
  rw [hexec, State.locEvent_eq, State.intake, if_neg hnotLoad, if_neg hnotOff]

theorem State.applyAck_of_matched {s : State} {a : DirectiveAck} {k : Nat} {e : Entry} {h : Handover}
    (hl : s.lookup a.radio = some (k, e)) (hm : e.state = .moving) (hh : e.handover = some h) (ht : a.site = h.target)
    (hn : a.number = e.number) :
    s.applyAck a =
      if a.accept then s.writeEntry k (some { e with handover := some { h with accepted := true } }) else s.abandon k e h := by
  simp only [State.applyAck, hl, hm, hh]
  exact if_pos ⟨ht, hn⟩

/-- An acknowledgement is stale if its radio has no entry, or one that is not MOVING to its site under its number (R7, R52). -/
theorem State.applyAck_of_stale {s : State} {a : DirectiveAck}
    (hstale : s.lookup a.radio = none ∨
      ∃ k e, s.lookup a.radio = some (k, e) ∧
        (e.state ≠ .moving ∨ ∃ h, e.handover = some h ∧ (a.site ≠ h.target ∨ a.number ≠ e.number))) :
    s.applyAck a = s.count (.global .staleAcks) := by
  have hnot : ∀ k e h, s.lookup a.radio = some (k, e) → e.state = .moving → e.handover = some h →
      ¬(a.site = h.target ∧ a.number = e.number) := by
    rcases hstale with hnone | ⟨k, e, hl, hne⟩
    · simp [hnone]
    · intro k' e' h' hl' hm' hh' ⟨ht, hn⟩
      rw [hl, Option.some.injEq, Prod.mk.injEq] at hl'
      obtain ⟨rfl, rfl⟩ := hl'
      rcases hne with hm | ⟨h, hh, hsite | hnumber⟩
      · exact hm hm'
      · rw [hh, Option.some.injEq] at hh'
        exact hsite (hh' ▸ ht)
      · exact hnumber hn
  unfold State.applyAck
  split
  · rfl
  · next k e hl =>
    split
    · next h hm hh => exact if_neg (hnot k e h hl hm hh)
    · rfl

/-- A matched acknowledgement changes neither condition. -/
theorem withConditions_applyAck_of_matched {s : State} {a : DirectiveAck} {k : Nat} {e : Entry} {h : Handover}
    (hk : Occupied s k e) (happly : s.applyAck a =
      if a.accept then s.writeEntry k (some { e with handover := some { h with accepted := true } }) else s.abandon k e h) :
    withConditions s (s.applyAck a) = s.applyAck a := by
  rw [happly]
  cases a.accept
  case true => exact withConditions_of_entries_insert hk (State.writeEntry_some_entries ..) rfl
  case false => exact withConditions_of_entries_insert hk (State.abandon_entries ..) rfl

/-- Settles O27: the frame is taken, then matched or counted as stale. -/
theorem acknowledgementMatched : Obligations.AcknowledgementMatched := by
  intro s a rest hf hrun hsite
  refine ⟨?matched, ?stale⟩
  case matched =>
    intro k e h ⟨hsorted, hl⟩ hm hh ht hn
    have hk : Occupied (frameTaken s rest) k e := ⟨hsorted, State.entry_of_lookup hsorted hl⟩
    have happly := State.applyAck_of_matched (s := frameTaken s rest) hl hm hh ht hn
    rw [exec_directiveAck_of_ack hf hrun hsite, withConditions_applyAck_of_matched hk happly, happly]
  case stale =>
    intro hstale
    have happly : (frameTaken s rest).applyAck a = (frameTaken s rest).count (.global .staleAcks) :=
      State.applyAck_of_stale hstale
    rw [exec_directiveAck_of_ack hf hrun hsite, happly,
      withConditions_of_entries_eq (s := frameTaken s rest) (t := (frameTaken s rest).count _) rfl]

/-! ### The steps of an audit visit -/

/-- AUDIT_VISIT in RUN of a slot awaiting its visit. -/
theorem exec_auditVisit_of_mem {s : State} {k : Nat} (hrun : s.mgmt.run = .run) (hk : k ∈ s.loc.visits) :
    exec (.auditVisit k) s = .next (withConditions (visitTaken s k) ((visitTaken s k).visit k)) := by
  rw [← State.locEvent_eq]
  exact if_pos ⟨hrun, hk⟩

theorem State.modifyEntry_of_entry {s : State} {k : Nat} {e : Entry} (hk : s.entry k = some e) (f : Entry → Entry) :
    s.modifyEntry k f = s.writeEntry k (some (f e)) := by
  simp only [State.modifyEntry, hk]

/-- Steps 1 and 2 together (R18). -/
theorem dropStale_ageCounters (s : State) (e : Entry) :
    e.ageCounters.dropStale s.loc.epoch s.loc.timing.staleLimit = audited s e := by
  have hshadow : (if e.state = .shadow then holdInc e.shadow else e.shadow) =
      if e.state = .shadow ∧ e.shadow < 255 then e.shadow + 1 else e.shadow := by
    unfold holdInc
    split <;> simp_all
  unfold Entry.dropStale Entry.ageCounters audited
  rw [hshadow]
  cases hs : e.state <;> cases hh : e.handover <;> cases hf : e.failed <;> rfl

theorem alike_dropStale (now : Epoch) (limit : Nat) (e : Entry) : Alike (some e) (some (e.dropStale now limit)) :=
  Alike.of_kept rfl rfl rfl rfl rfl

/-- The visit of an occupied slot: its entry as steps 1 and 2 leave it, then the check, the decision and the purge (R18). -/
theorem State.visit_of_entry {s : State} {k : Nat} {e : Entry} (hk : s.entry k = some e) :
    s.visit k = (((s.writeEntry k (some (audited s e))).checkState k).roamDecision k).purge k := by
  unfold State.visit
  dsimp only
  rw [State.modifyEntry_of_entry hk, State.modifyEntry_of_entry (State.entry_writeEntry_self ..),
    State.writeEntry_writeEntry_alike (alike_dropStale ..), dropStale_ageCounters]

/-- The timeout check of a MOVING entry (R53). -/
theorem State.checkState_of_moving {s : State} {k : Nat} {e : Entry} {h : Handover} (hk : s.entry k = some e)
    (hm : e.state = .moving) (hh : e.handover = some h) :
    s.checkState k =
      if (s.policy e).roamTimeout ≤ h.age then if h.retries < (s.policy e).retryLimit then s.retry k e h else s.abandon k e h
      else s := by
  simp only [State.checkState, hk, hm, hh]

/-- No roam decision is taken for an entry that is UNATTACHED or MOVING (R34). -/
theorem State.roamDecision_eq_self {s : State} {k : Nat} {e : Entry} (hk : s.entry k = some e)
    (hs : e.state = .unattached ∨ e.state = .moving) : s.roamDecision k = s := by
  rcases State.roamDecision_cases k s with h | ⟨e', b, hk', htakes, -⟩
  · exact h
  · rw [hk, Option.some.injEq] at hk'
    subst hk'
    rcases hs with hs | hs <;> simp [State.takesTarget, hs] at htakes

/-- A roam decision leaves the slot's entry, or one MOVING with the same emergency flag. -/
theorem State.roamDecision_entries {s t : State} {k : Nat} {g : Entry} (ht : t.loc.entries = s.loc.entries.insert k g) :
    ∃ g' : Entry, (t.roamDecision k).loc.entries = s.loc.entries.insert k g' ∧ g'.emergency = g.emergency ∧
      (g' = g ∨ g'.state = .moving) := by
  rcases State.roamDecision_cases k t with hsame | ⟨e, b, hk, -, hstarts⟩
  · exact ⟨g, by rw [hsame, ht], rfl, .inl rfl⟩
  · rw [State.entry_of_entries_insert ht, Option.some.injEq] at hk
    subst hk
    rw [hstarts]
    rcases State.startHandover_cases k g b.site .directed t with ⟨t1, ht1, hrefused⟩ | ⟨t2, d, ht2, hstarted⟩
    · have hentries : t1.loc = t.loc := by rcases ht1 with rfl | rfl <;> rfl
      exact ⟨g, by rw [hrefused, hentries, ht], rfl, .inl rfl⟩
    · refine ⟨{ g with number := g.number + 1, handover := some ⟨b.site, .directed, 0, 0, false⟩, state := .moving },
        ?_, rfl, .inr rfl⟩
      rw [hstarted, State.writeEntry_some_entries, ht2, State.issueDirective_loc, State.pushControl_loc, ht, Tab.insert_insert]

theorem State.purge_eq_self {s : State} {k : Nat} {e : Entry} (hk : s.entry k = some e) (hs : e.state ≠ .unattached) :
    s.purge k = s := by
  simp only [State.purge, hk]
  exact if_neg fun h => hs h.1

theorem State.purge_of_due {s : State} {k : Nat} {e : Entry} (hk : s.entry k = some e) (hs : e.state = .unattached)
    (hdue : PurgeDue s e) : s.purge k = (s.writeEntry k none).count (.global .purgedEntries) := by
  simp only [State.purge, hk]
  exact if_pos ⟨hs, hdue⟩

theorem State.purge_of_not_due {s : State} {k : Nat} {e : Entry} (hk : s.entry k = some e) (hdue : ¬PurgeDue s e) :
    s.purge k = s := by
  simp only [State.purge, hk]
  exact if_neg fun h => hdue h.2

/-- Steps 4 and 5 of the visit do nothing to an entry still MOVING. -/
theorem State.purge_roamDecision_of_moving {s : State} {k : Nat} {e : Entry} (hk : s.entry k = some e) (hm : e.state = .moving) :
    (s.roamDecision k).purge k = s := by
  rw [State.roamDecision_eq_self hk (.inr hm), State.purge_eq_self hk (by simp [hm])]

/-! ### The audit visit of a MOVING entry -/

/-- The entry after a retry (R54). -/
def retried (e : Entry) (h : Handover) : Entry :=
  { e with number := e.number + 1, handover := some { h with retries := h.retries + 1, age := 0, accepted := false } }

/-- A retry straight after the entry was written: both directives, then one write (R54). -/
theorem State.retry_writeEntry {e : Entry} {h : Handover} (hh : e.handover = some h) (k : Nat) (s : State) :
    (s.writeEntry k (some e)).retry k e h =
      ((s.issueDirective (directiveOf e h.target .serve e.serving (e.number + 1))).issueDirective
        (directiveOf e e.serving .move h.target (e.number + 1))).writeEntry k (some (retried e h)) := by
  have halike : Alike (some e) (some (retried e h)) := Alike.of_kept rfl rfl (by rw [hh]; rfl) rfl rfl
  change (((s.writeEntry k (some e)).issueDirective (directiveOf e h.target .serve e.serving (e.number + 1))).issueDirective
    (directiveOf e e.serving .move h.target (e.number + 1))).writeEntry k (some (retried e h)) = _
  rw [State.writeEntry_issueDirective, State.writeEntry_issueDirective, State.writeEntry_writeEntry_alike halike]

/-- An abandon changes nothing the purge reads but the state. -/
theorem purgeDue_abandoned_iff (k : Nat) (e : Entry) (h : Handover) (s : State) :
    PurgeDue (s.abandon k e h) (abandoned s e h) ↔ PurgeDue s e := by
  unfold PurgeDue
  rw [State.abandon_loc_timing, State.abandon_loc_epoch]
  rfl

/-- The end of a visit that abandoned the handover of an entry with a serving site: the roam decision stands, nothing is purged. -/
theorem State.purge_roamDecision_abandon {e : Entry} (hserving : e.serving ≠ 0) (k : Nat) (h : Handover) (s : State) :
    ((s.abandon k e h).roamDecision k).purge k = (s.abandon k e h).roamDecision k := by
  obtain ⟨g, hentries, -, hg⟩ := State.roamDecision_entries (State.abandon_entries k e h s)
  refine State.purge_eq_self (State.entry_of_entries_insert hentries) ?_
  rcases hg with rfl | hmoving
  · exact fun hs => hserving ((abandoned_state_eq_unattached_iff s e h).mp hs)
  · simp [hmoving]

/-- The abandon and roam decision of a visit change neither condition. -/
theorem withConditions_roamDecision_abandon {s t : State} {k : Nat} {e e1 : Entry} {h : Handover} (hk : Occupied s k e)
    (ht : t.loc.entries = s.loc.entries.insert k e1) (he : e1.emergency = e.emergency) :
    withConditions s ((t.abandon k e1 h).roamDecision k) = (t.abandon k e1 h).roamDecision k := by
  have habandon : (t.abandon k e1 h).loc.entries = s.loc.entries.insert k (abandoned t e1 h) := by
    rw [State.abandon_entries, ht, Tab.insert_insert]
  obtain ⟨g, hentries, hemergency, -⟩ := State.roamDecision_entries habandon
  exact withConditions_of_entries_insert hk hentries (hemergency.trans he)

/-- The audit visit of a MOVING entry, by what the timeout check finds (R18, R53). -/
theorem exec_auditVisit_of_moving {s : State} {k : Nat} {e : Entry} {h : Handover} (hrun : s.mgmt.run = .run)
    (hvisit : k ∈ s.loc.visits) (hk : s.entry k = some e) (hm : e.state = .moving) (hh : (audited s e).handover = some h) :
    let v := (visitTaken s k).writeEntry k (some (audited s e))
    exec (.auditVisit k) s =
      .next (withConditions (visitTaken s k)
        (((if (s.policy e).roamTimeout ≤ h.age then
            if h.retries < (s.policy e).retryLimit then v.retry k (audited s e) h else v.abandon k (audited s e) h
          else v).roamDecision k).purge k)) := by
  intro v
  have hvisited : (visitTaken s k).visit k = ((v.checkState k).roamDecision k).purge k := State.visit_of_entry hk
  have hchecked : v.checkState k =
      if (s.policy e).roamTimeout ≤ h.age then
        if h.retries < (s.policy e).retryLimit then v.retry k (audited s e) h else v.abandon k (audited s e) h
      else v :=
    State.checkState_of_moving (State.entry_writeEntry_self ..) hm hh
  rw [exec_auditVisit_of_mem hrun hvisit, hvisited, hchecked]

/-- Settles O31: the visit's five steps in order, by what the timeout check finds. -/
theorem auditOfMovingEntry : Obligations.AuditOfMovingEntry := by
  intro s k e h hrun hvisit hocc hmoving hh t e1 visit
  have hocc1 : Occupied t k e := hocc
  have hm1 : e1.state = .moving := hmoving
  have hvisited : visit = _ := exec_auditVisit_of_moving hrun hvisit hocc.2 hmoving hh
  refine ⟨?waits, ?retries, ?abandons⟩
  case waits =>
    intro hage
    have hsame : withConditions t (t.writeEntry k (some e1)) = t.writeEntry k (some e1) :=
      withConditions_of_entries_insert hocc1 (State.writeEntry_some_entries ..) rfl
    rw [hvisited, if_neg (Nat.not_le.mpr hage), State.purge_roamDecision_of_moving (State.entry_writeEntry_self ..) hm1, hsame]
  case retries =>
    intro hage hleft
    have hentries : ((t.writeEntry k (some e1)).retry k e1 h).loc.entries = t.loc.entries.insert k (retried e1 h) := by
      rw [State.retry_writeEntry hh, State.writeEntry_some_entries, State.issueDirective_loc, State.issueDirective_loc]
    rw [hvisited, if_pos hage, if_pos hleft,
      State.purge_roamDecision_of_moving (State.entry_of_entries_insert hentries) hm1,
      withConditions_of_entries_insert hocc1 hentries rfl, State.retry_writeEntry hh]
    rfl
  case abandons =>
    intro hage hspent
    let v := t.writeEntry k (some e1)
    have hkept : (v.abandon k e1 h).entry k = some (abandoned v e1 h) := State.abandon_entry k e1 h v
    have hstate : (abandoned v e1 h).state = .unattached ↔ e.serving = 0 := abandoned_state_eq_unattached_iff v e1 h
    have hdue : PurgeDue (v.abandon k e1 h) (abandoned v e1 h) ↔ PurgeDue s e1 := purgeDue_abandoned_iff k e1 h v
    have hsame : withConditions t ((v.abandon k e1 h).roamDecision k) = (v.abandon k e1 h).roamDecision k :=
      withConditions_roamDecision_abandon hocc1 (State.writeEntry_some_entries ..) rfl
    rw [hvisited, if_pos hage, if_neg (Nat.not_lt.mpr hspent)]
    refine ⟨fun hserving => ?_, fun hserving hnot => ?_, fun hserving hpurge => ?_⟩
    · have hserving1 : e1.serving ≠ 0 := hserving
      rw [State.purge_roamDecision_abandon hserving1, hsame]
    · have hdecision := State.roamDecision_eq_self hkept (.inl (hstate.mpr hserving))
      rw [hdecision] at hsame
      rw [hdecision, State.purge_of_not_due hkept (mt hdue.mp hnot), hsame]
    · rw [State.roamDecision_eq_self hkept (.inl (hstate.mpr hserving)),
        State.purge_of_due hkept (hstate.mpr hserving) (hdue.mpr hpurge)]
      rfl

end Sys2Proof.Machine

/-! Call voting at a record: a copy that finds the call table full (R92), one of the current burst in an OPEN window (R93), and a
late one (R94). -/

namespace Sys2Proof.Machine

/-! ### Taking a copy -/

/-- R26 and R27 as the model composes them, and as the statements write them. -/
theorem rawQuality_map_adjust (s : State) (site quality : Nat) :
    (rawQuality quality).map (adjust (s.site site).cfg.offset) = adjustedQuality s site quality := by
  unfold rawQuality adjustedQuality
  split <;> rfl

theorem adjustedQuality_noDecode {s : State} {site quality : Nat} (h : quality = 255) : adjustedQuality s site quality = none :=
  if_pos h

/-- RECEPTION in RUN of a copy that is not a PING: reported, then looked up (R89, R90). -/
theorem exec_reception_of_run {s : State} {c : Copy} {rest : List Copy} (hinbox : s.vote.inbox = c :: rest)
    (hping : c.callType ≠ .ping) (hrun : s.mgmt.run = .run) :
    exec .reception s = .next ((reported s c rest).voteOn c (adjustedQuality s c.site c.quality)) := by
  have htaken : exec .reception s = .next (({ s with vote.inbox := rest } : State).takeCopy c) := by
    change execReception s = _
    rw [execReception, hinbox]
  have hrun' : ({ s with vote.inbox := rest } : State).mgmt.run = .run := hrun
  rw [htaken, State.takeCopy, if_neg hping, hrun', ← rawQuality_map_adjust]
  rfl

/-- Handing a copy on leaves the call table alone. -/
@[simp] theorem callOf_reported (s : State) (c : Copy) (rest : List Copy) (radio : RadioId) (tag : BitVec 8) :
    (reported s c rest).callOf radio tag = s.callOf radio tag := rfl

@[simp] theorem reported_calls (s : State) (c : Copy) (rest : List Copy) : (reported s c rest).vote.calls = s.vote.calls := rfl

/-! ### A full call table -/

/-- No free call record is found among records in use. -/
theorem freeCall_eq_none {t : Tab CallRecord} {n a : Nat} (h : ∀ j, a ≤ j → j < a + n → (t.at? j).isSome = true) :
    freeCall t n a = none := by
  induction n generalizing a with
  | zero => rfl
  | succ n ih =>
    have hused : ¬(t.at? a).isNone = true := by simpa using Option.isSome_iff_ne_none.mp (h a (Nat.le_refl a) (by omega))
    rw [freeCall, if_neg hused]
    exact ih fun j hle hlt => h j (by omega) (by omega)

theorem State.passThrough_decoded (c : Copy) (q : Nat) (s : State) :
    s.passThrough c (some q) = (s.offerCore (unvotedUplink c q)).count (.global .unvotedCopies) := rfl

theorem State.passThrough_noDecode (c : Copy) (s : State) : s.passThrough c none = s := rfl

/-- A copy that has no record, and finds none free (R92). -/
theorem State.voteOn_of_full {s : State} {c : Copy} (hnone : s.callOf c.radio c.tag = none)
    (hfull : ∀ j < 48, (s.vote.calls.at? j).isSome = true) (a : Option Nat) :
    s.voteOn c a = (s.passThrough c a).reportAlert .callTableFull true := by
  have hfree : freeCall s.vote.calls Config.callRecords 0 = none := freeCall_eq_none fun j _ hlt => hfull j (by omega)
  simp only [State.voteOn, hnone, State.newCall, hfree]

/-- Settles O13: with no record free, the copy is passed through by whether it is decoded. -/
theorem fullCallTablePassesThrough : Obligations.FullCallTablePassesThrough := by
  intro s c rest hinbox hping hrun hnone hfull
  rw [exec_reception_of_run hinbox hping hrun, State.voteOn_of_full (by simpa using hnone) (by simpa using hfull)]
  refine ⟨fun q hq => ?decoded, fun hq => ?noDecode⟩
  case decoded => rw [hq, State.passThrough_decoded]
  case noDecode => rw [adjustedQuality_noDecode hq, State.passThrough_noDecode]

/-! ### A copy whose call has a record -/

/-- A copy of the current burst, by the state of the window (R90). -/
theorem State.voteOn_of_current {s : State} {c : Copy} {k : Nat} {r : CallRecord} (hcall : s.callOf c.radio c.tag = some (k, r))
    (hseq : c.seq = r.seq) (a : Option Nat) :
    s.voteOn c a = if r.isOpen then s.putCall k (s.voteCopy c a r) else s.lateCopy k c r := by
  have hdiff : (c.seq - r.seq).toNat = 0 := by rw [hseq, BitVec.sub_self]; rfl
  simp only [State.voteOn, hcall]
  exact if_pos hdiff

/-- A copy behind its call (R90). -/
theorem State.voteOn_of_behind {s : State} {c : Copy} {k : Nat} {r : CallRecord} (hcall : s.callOf c.radio c.tag = some (k, r))
    (hbehind : 128 ≤ (c.seq - r.seq).toNat) (a : Option Nat) : s.voteOn c a = s.lateCopy k c r := by
  simp only [State.voteOn, hcall]
  rw [if_neg (by omega), if_neg (by omega)]

/-- The record a copy is entered into, field by field (R93). -/
theorem State.voteCopy_eq (s : State) (c : Copy) (a : Option Nat) (r : CallRecord) :
    s.voteCopy c a r =
      { refreshed s r with
        copies := if r.copies < 255 then r.copies + 1 else r.copies
        endSeen := r.endSeen || c.endFlag
        emergencySeen := r.emergencySeen || c.emergency
        best :=
          match a, r.best with
          | some q, some b => if b.quality < q then some { site := c.site, quality := q, payload := c.payload } else some b
          | some q, none => some { site := c.site, quality := q, payload := c.payload }
          | none, b => b } := by
  unfold State.voteCopy
  cases a <;> cases r.best <;> rfl

/-- Settles O14: the record found is written with the copy entered. -/
theorem copyEntersOpenWindow : Obligations.CopyEntersOpenWindow := by
  intro s c rest k r hinbox hping hrun hcall hseq hopen
  have hcall' : (reported s c rest).callOf c.radio c.tag = some (k, r) := hcall
  rw [exec_reception_of_run hinbox hping hrun, State.voteOn_of_current hcall' hseq, if_pos hopen, State.voteCopy_eq]
  rfl

/-- Settles O15: both kinds of late copy are handled alike. -/
theorem lateCopyCounted : Obligations.LateCopyCounted := by
  intro s c rest k r hinbox hping hrun hcall hlate
  have hcall' : (reported s c rest).callOf c.radio c.tag = some (k, r) := hcall
  have hdiscarded : (reported s c rest).voteOn c (adjustedQuality s c.site c.quality) = (reported s c rest).lateCopy k c r := by
    obtain ⟨hseq, hclosed⟩ | hbehind := hlate
    · rw [State.voteOn_of_current hcall' hseq, hclosed, if_neg Bool.false_ne_true]
    · exact State.voteOn_of_behind hcall' hbehind _
  rw [exec_reception_of_run hinbox hping hrun, hdiscarded]
  rfl

end Sys2Proof.Machine

/-! Admission to the lanes and the core queue (R123, R124), and what a refusal counts and reports (R125). -/

namespace Sys2Proof.Machine

/-! ### The checks of an offer -/

/-- The pool has a slot for a control-class frame: the last of the 1536 will do (R120). -/
theorem State.controlSlot_iff (s : State) : s.controlSlot = true ↔ s.egress.poolUsed < 1536 := by
  unfold State.controlSlot State.poolFree Config.poolSlots
  rw [decide_eq_true_iff]
  omega

/-- The pool has a slot for a voice-class frame: 128 are kept back (R120). -/
theorem State.voiceSlot_iff (s : State) : s.voiceSlot = true ↔ s.egress.poolUsed + 128 < 1536 := by
  unfold State.voiceSlot State.poolFree Config.poolSlots Config.poolReserve
  rw [decide_eq_true_iff]
  omega

/-- Check 1 of R123 fails at the sites that are OFF or BARRED, and at no others. -/
theorem State.laneOpen_eq_false_iff (s : State) (x : Nat) :
    s.laneOpen x = false ↔ (s.site x).state = .off ∨ (s.site x).state = .barred := by
  unfold State.laneOpen
  cases (s.site x).state <;> simp

theorem State.laneOpen_of_ne {s : State} {x : Nat} (hoff : (s.site x).state ≠ .off) (hbarred : (s.site x).state ≠ .barred) :
    s.laneOpen x = true :=
  Bool.of_not_eq_false fun h => ((s.laneOpen_eq_false_iff x).mp h).elim hoff hbarred

/-! ### The verdicts -/

theorem State.controlVerdict_of_closed {s : State} {x : Nat} (h : s.laneOpen x = false) : s.controlVerdict x = .noSite := by
  simp [State.controlVerdict, h]

theorem State.controlVerdict_of_open {s : State} {x : Nat} (h : s.laneOpen x = true) :
    s.controlVerdict x = if (s.controlLane x).length < 16 ∧ s.egress.poolUsed < 1536 then .admitted else .noRoom := by
  simp [State.controlVerdict, h, State.controlSlot_iff]

theorem State.voiceVerdict_of_closed {s : State} {x : Nat} (h : s.laneOpen x = false) : s.voiceVerdict x = .noSite := by
  simp [State.voiceVerdict, h]

theorem State.voiceVerdict_of_open {s : State} {x : Nat} (h : s.laneOpen x = true) :
    s.voiceVerdict x =
      if (s.voiceLane x).length < (s.site x).cfg.voiceDepth ∧ s.egress.poolUsed + 128 < 1536 then .admitted else .noRoom := by
  simp [State.voiceVerdict, h, State.voiceSlot_iff]

/-- A response may fill the core queue and take the last slot of the pool (R124). -/
theorem State.coreVerdict_response (s : State) (r : Response) :
    s.coreVerdict (.response r) = if s.egress.core.length < 256 ∧ s.egress.poolUsed + 0 < 1536 then .admitted else .noRoom := by
  simp [State.coreVerdict, State.controlSlot_iff]

/-- Any other frame must leave the 8 reserved places and the 128 reserved slots (R124). -/
theorem State.coreVerdict_of_ne_response {f : CoreFrame} (hf : ∀ r, f ≠ .response r) (s : State) :
    s.coreVerdict f = if s.egress.core.length < 248 ∧ s.egress.poolUsed + 128 < 1536 then .admitted else .noRoom := by
  cases f with
  | response r => exact absurd rfl (hf r)
  | uplink | notice | alert => simp [State.coreVerdict, State.voiceSlot_iff, Config.coreDepth, Config.coreReserve]

/-! ### The offers, by their verdicts -/

/-- A refusal for lack of room at a lane counts and reports, and does nothing else (R125). -/
theorem State.dropped_noRoom_site (x : Nat) (s : State) : s.dropped (.site x .queueDrops) .noRoom = refusedAtLane x s := rfl

theorem State.offerControl_of_noSite {s : State} {x : Nat} (h : s.controlVerdict x = .noSite) (f : ControlFrame) :
    s.offerControl x f = (s.count (.site x .queueDrops), .noSite) := by
  simp only [State.offerControl, h, State.dropped]

theorem State.offerControl_of_verdict {s : State} {x : Nat} {room : Prop} [Decidable room]
    (h : s.controlVerdict x = if room then .admitted else .noRoom) (f : ControlFrame) :
    s.offerControl x f = if room then (s.pushControl x f, .admitted) else (refusedAtLane x s, .noRoom) := by
  by_cases hroom : room <;> simp only [State.offerControl, h, hroom, if_true, if_false, State.dropped_noRoom_site]

theorem State.offerVoice_of_noSite {s : State} {x : Nat} (h : s.voiceVerdict x = .noSite) (f : DownlinkCopy) :
    s.offerVoice x f = (s.count (.site x .queueDrops), .noSite) := by
  simp only [State.offerVoice, h, State.dropped]

theorem State.offerVoice_of_verdict {s : State} {x : Nat} {room : Prop} [Decidable room]
    (h : s.voiceVerdict x = if room then .admitted else .noRoom) (f : DownlinkCopy) :
    s.offerVoice x f = if room then (s.pushVoice x f, .admitted) else (refusedAtLane x s, .noRoom) := by
  by_cases hroom : room <;> simp only [State.offerVoice, h, hroom, if_true, if_false, State.dropped_noRoom_site]

theorem State.offerCore_of_verdict {s : State} {f : CoreFrame} {room : Prop} [Decidable room]
    (h : s.coreVerdict f = if room then .admitted else .noRoom) :
    s.offerCore f =
      if room then s.pushCore f else (s.reportAlert .queueDrop true).count (.global .coreQueueDrops) := by
  by_cases hroom : room <;> simp only [State.offerCore, h, hroom, if_true, if_false]
  case neg => rfl

/-! ### Each queue -/

/-- Settles O39, queue by queue: the lanes by the site's state, the core queue by whether the frame is a response. -/
theorem laneAndCoreAdmission : Obligations.LaneAndCoreAdmission := by
  refine ⟨fun s x f => ⟨fun hclosed => ?controlClosed, fun hoff hbarred => ?controlOpen⟩,
    fun s x f => ⟨fun hclosed => ?voiceClosed, fun hoff hbarred => ?voiceOpen⟩, fun s f => ?core⟩
  case controlClosed => exact State.offerControl_of_noSite (State.controlVerdict_of_closed ((s.laneOpen_eq_false_iff x).mpr hclosed)) f
  case controlOpen => exact State.offerControl_of_verdict (State.controlVerdict_of_open (State.laneOpen_of_ne hoff hbarred)) f
  case voiceClosed => exact State.offerVoice_of_noSite (State.voiceVerdict_of_closed ((s.laneOpen_eq_false_iff x).mpr hclosed)) f
  case voiceOpen => exact State.offerVoice_of_verdict (State.voiceVerdict_of_open (State.laneOpen_of_ne hoff hbarred)) f
  case core =>
    cases f with
    | response r => exact State.offerCore_of_verdict (s.coreVerdict_response r)
    | uplink | notice | alert => exact State.offerCore_of_verdict (s.coreVerdict_of_ne_response (by simp))

end Sys2Proof.Machine

/-! The counters: their keys (R157), how one is raised, and CLEAR_COUNTERS (R158). -/

namespace Sys2Proof.Machine

/-! ### The place of a counter in its set -/

/-- A counter is read back from its place in the set, so no two of a set share a place. -/
theorem GlobalCounter.ofNat_index : Function.LeftInverse GlobalCounter.ofNat GlobalCounter.index := by
  intro c; cases c <;> rfl

theorem SiteCounter.ofNat_index : Function.LeftInverse SiteCounter.ofNat SiteCounter.index := by
  intro c; cases c <;> rfl

theorem PortCounter.ofNat_index : Function.LeftInverse PortCounter.ofNat PortCounter.index := by
  intro c; cases c <;> rfl

theorem GlobalCounter.index_lt (c : GlobalCounter) : c.index < 32 := by cases c <;> decide

theorem SiteCounter.index_lt (c : SiteCounter) : c.index < 32 := by cases c <;> decide

theorem PortCounter.index_lt (c : PortCounter) : c.index < 32 := by cases c <;> decide

/-! ### The key of a counter -/

/-- The set a counter belongs to, by its key (R157): 0 the global set, 1 to 40 the sites, 41 and 42 the ports. -/
def CounterId.set : CounterId → Nat
  | .global _ => 0
  | .site x _ => x
  | .port p _ => portSet p

/-- A counter's place in its set (table 10-2). -/
def CounterId.place : CounterId → Nat
  | .global c => c.index
  | .site _ c => c.index
  | .port _ c => c.index

theorem CounterId.key_eq (c : CounterId) : c.key = c.set * 32 + c.place := by
  cases c with
  | global c => simp only [key, set, place, Nat.zero_mul, Nat.zero_add]
  | site x c => rfl
  | port p c => rfl

theorem CounterId.place_lt (c : CounterId) : c.place < 32 := by
  cases c with
  | global c => exact c.index_lt
  | site x c => exact c.index_lt
  | port p c => exact c.index_lt

/-- A key is the number of its set and the place in it, since no set has 32 counters. -/
theorem CounterId.key_eq_iff (c d : CounterId) : c.key = d.key ↔ c.set = d.set ∧ c.place = d.place := by
  have hc := c.place_lt
  have hd := d.place_lt
  rw [c.key_eq, d.key_eq]
  omega

/-- The counter is one the part has: a site's counter is of a site it has. -/
def CounterId.Held (c : CounterId) : Prop := ∀ x f, c = .site x f → validSite x = true

theorem CounterId.held_site_iff (x : Nat) (f : SiteCounter) : (CounterId.site x f).Held ↔ 1 ≤ x ∧ x ≤ 40 := by
  have hvalid : validSite x = true ↔ 1 ≤ x ∧ x ≤ 40 := by simp [validSite, Config.siteCount]
  rw [← hvalid]
  exact ⟨fun h => h x f rfl, fun h y g hy => by cases hy; exact h⟩

theorem portSet_injective : Function.Injective portSet := by
  intro p q h
  cases p with
  | site =>
    cases q with
    | site => rfl
    | core => exact absurd h (by decide)
  | core =>
    cases q with
    | site => exact absurd h (by decide)
    | core => rfl

theorem portSet_gt (p : Port) : 40 < portSet p := by cases p <;> decide

/-- The sets lie apart, so a set and a place in it name one counter of the part. -/
theorem CounterId.eq_of_set_eq_of_place_eq {c d : CounterId} (hc : c.Held) (hd : d.Held) (hset : c.set = d.set)
    (hplace : c.place = d.place) : c = d := by
  cases c with
  | global a =>
    cases d with
    | global b => exact congrArg global (GlobalCounter.ofNat_index.injective hplace)
    | site y b => exact absurd hset (Nat.ne_of_lt ((held_site_iff y b).mp hd).1)
    | port q b => exact absurd hset (Nat.ne_of_lt (Nat.zero_lt_of_lt (portSet_gt q)))
  | site x a =>
    obtain ⟨hlow, hhigh⟩ := (held_site_iff x a).mp hc
    cases d with
    | global b => exact absurd hset (Nat.ne_of_gt hlow)
    | site y b =>
      have hindex : a = b := SiteCounter.ofNat_index.injective hplace
      rw [show x = y from hset, hindex]
    | port q b => exact absurd hset (Nat.ne_of_lt (Nat.lt_of_le_of_lt hhigh (portSet_gt q)))
  | port p a =>
    cases d with
    | global b => exact absurd hset (Nat.ne_of_gt (Nat.zero_lt_of_lt (portSet_gt p)))
    | site y b => exact absurd hset (Nat.ne_of_gt (Nat.lt_of_le_of_lt ((held_site_iff y b).mp hd).2 (portSet_gt p)))
    | port q b =>
      have hindex : a = b := PortCounter.ofNat_index.injective hplace
      rw [portSet_injective hset, hindex]

theorem CounterId.key_injective {c d : CounterId} (hc : c.Held) (hd : d.Held) (hkey : c.key = d.key) : c = d := by
  obtain ⟨hset, hplace⟩ := (key_eq_iff c d).mp hkey
  exact eq_of_set_eq_of_place_eq hc hd hset hplace

/-! ### Raising a counter -/

theorem Counter.add_value (c : Counter) (n : Nat) : (c.add n).value.toNat = (c.value.toNat + n) % 2 ^ 32 := by
  simp only [Counter.add, BitVec.toNat_add, BitVec.toNat_ofNat, Nat.add_mod_mod]

theorem Counter.add_wrapped_iff (c : Counter) (n : Nat) :
    (c.add n).wrapped = true ↔ c.wrapped = true ∨ 2 ^ 32 ≤ c.value.toNat + n := by
  simp only [Counter.add, Bool.or_eq_true, decide_eq_true_iff]

theorem State.countBy_counter_self (n : Nat) (c : CounterId) (s : State) :
    (s.countBy n c).mgmt.counters.atD c.key Counter.zero = (s.mgmt.counters.atD c.key Counter.zero).add n := by
  rw [State.countBy_counters, if_pos rfl]

theorem State.countBy_counter_ne {k : Nat} {c : CounterId} (h : k ≠ c.key) (n : Nat) (s : State) :
    (s.countBy n c).mgmt.counters.atD k Counter.zero = s.mgmt.counters.atD k Counter.zero := by
  rw [State.countBy_counters, if_neg h]

/-! ### CLEAR_COUNTERS -/

/-- Of the checks of R142, a CLEAR_COUNTERS of the right length can fail only the second: LOCK does not hold it off. -/
theorem State.precheck_of_clearCounters {r : Request} (hkind : r.kind = .clearCounters) (hbody : r.body = []) (s : State) :
    s.precheck r = if s.mgmt.batch.isSome then some .batchActive else none := by
  have hlength : r.lengthOk = true := by rw [Request.lengthOk_iff, LengthRight, hkind]; exact hbody
  have hbatch : r.heldByBatch = true := by simp only [Request.heldByBatch, hkind]
  have hcode : r.codeOk = true := by simp only [Request.codeOk, hkind]
  have hlock : r.heldByLock = false := by simp only [Request.heldByLock, hkind]
  simp [State.precheck, hlength, hbatch, hcode, hlock]

theorem taken_batch (s : State) (rest : List Request) : (taken s rest).mgmt.batch = s.mgmt.batch := rfl

/-- CLEAR_COUNTERS completed: held off by a batch alone, else every counter is unlisted, so it reads as 0 (R158). -/
theorem exec_clearCounters_of_front {s : State} {r : Request} {rest : List Request} (hfront : Front s r rest)
    (hkind : r.kind = .clearCounters) (hbody : r.body = []) :
    exec .clearCounters s =
      .next
        (if s.mgmt.batch.isSome then answeredWith r .batchActive [] (taken s rest)
        else answeredWith r .ok [] { taken s rest with mgmt.counters := [] }) := by
  have hrow : Request.isKind .clearCounters r = true := decide_eq_true hkind
  have hnotBatch : r.kind ≠ .batch := by rw [hkind]; decide
  have hexec : exec .clearCounters s =
      .next (s.complete (Request.isKind .clearCounters) (controlling fun t => { t with mgmt.counters := [] })) := rfl
  rw [hexec, State.complete_of_front _ _ s r rest hfront, if_pos hrow, State.precheck_of_clearCounters hkind hbody, if_neg hnotBatch,
    taken_batch]
  cases s.mgmt.batch.isSome with
  | true => rfl
  | false => rfl

/-! ### The statement -/

/-- Settles O52: a raise by what `Counter.add` does at the counter's key, the keys by set and place, CLEAR_COUNTERS by whether a
batch is in progress. -/
theorem countersRaisedAndCleared : Obligations.CountersRaisedAndCleared := by
  refine ⟨fun s n c => ?raised, fun c d hc hd hkey => CounterId.key_injective hc hd hkey,
    fun s r rest hfront hkind hbody => ⟨fun hidle => ?cleared, fun hactive => ?refused, fun k => rfl⟩⟩
  case raised =>
    dsimp only
    rw [State.countBy_counter_self]
    exact ⟨Counter.add_value _ n, Counter.add_wrapped_iff _ n, fun k hk => State.countBy_counter_ne hk n s⟩
  case cleared => rw [exec_clearCounters_of_front hfront hkind hbody, hidle]; rfl
  case refused => rw [exec_clearCounters_of_front hfront hkind hbody, if_pos (Option.isSome_iff_ne_none.mpr hactive)]

end Sys2Proof.Machine

/-! What every step keeps: the laws of Safety.lean as one relation between a state and a later one, and the shared operations that
stand in it. -/

namespace Sys2Proof.Machine

/-! ### The laws a change keeps -/

/-- The laws of the radio entries and of what waits at the location engine. -/
def EntryLaws (s : State) : Prop := EntriesSound s ∧ EntryTableSound s ∧ InboxesSound s

/-- The laws of the counts kept of the entries. -/
def CountLaws (s : State) : Prop := LoadLaw s ∧ CountLaw s

/-- The laws of the pool and the queues. -/
def QueueLaws (s : State) : Prop := PoolLaw s ∧ QueueCapacity s

/-- The laws of run state, LOCK, calls, small figures and flags. -/
def ControlLaws (s : State) : Prop := EpochLaw s ∧ LockLaw s ∧ CallsSound s ∧ FiguresInRange s ∧ DisabledFlagsClear s

/-- From `s` to `t` every law is kept, those of the entries provided what was taken from an inbox was sound (`A`). -/
structure KeepsLaws (A : Prop) (s t : State) : Prop where
  pending : t.pending = s.pending
  now : t.now = s.now
  tables : TablesCanonical s → TablesCanonical t
  config : TablesCanonical s → ConfigurationInRange s → ConfigurationInRange t
  entries : A → TablesCanonical s → ConfigurationInRange s → EntryLaws s → EntryLaws t
  counts : A → TablesCanonical s → ConfigurationInRange s → EntryLaws s → CountLaws s → CountLaws t
  queues : TablesCanonical s → ConfigurationInRange s → QueueLaws s → QueueLaws t
  control : TablesCanonical s → ConfigurationInRange s → ControlLaws s → ControlLaws t

/-- From `s` to `t` every law is kept, and, under LOCK with no batch in progress, LOCK and the configuration. -/
structure Keeps (A : Prop) (s t : State) : Prop extends KeepsLaws A s t where
  locked : TablesCanonical s → s.mgmt.lock = true → s.mgmt.batch = none → ConfigurationSame s t ∧ t.mgmt.batch = none

variable {A B : Prop} {s t u : State}

theorem ConfigurationSame.trans (h1 : ConfigurationSame s t) (h2 : ConfigurationSame t u) : ConfigurationSame s u := by
  obtain ⟨_, hcfg1, hpol1, hran1, htim1, hrow1⟩ := h1
  obtain ⟨hlock2, hcfg2, hpol2, hran2, htim2, hrow2⟩ := h2
  refine ⟨hlock2, fun x => (hcfg2 x).trans (hcfg1 x), hpol2.trans hpol1, hran2.trans hran1, htim2.trans htim1, fun k hk => ?_⟩
  have hrow := hrow1 k hk
  exact (hrow2 k (hrow ▸ hk)).trans hrow

theorem KeepsLaws.trans (h1 : KeepsLaws A s t) (h2 : KeepsLaws A t u) : KeepsLaws A s u where
  pending := h2.pending.trans h1.pending
  now := h2.now.trans h1.now
  tables hs := h2.tables (h1.tables hs)
  config hs hc := h2.config (h1.tables hs) (h1.config hs hc)
  entries ha hs hc he := h2.entries ha (h1.tables hs) (h1.config hs hc) (h1.entries ha hs hc he)
  counts ha hs hc he hn :=
    h2.counts ha (h1.tables hs) (h1.config hs hc) (h1.entries ha hs hc he) (h1.counts ha hs hc he hn)
  queues hs hc hq := h2.queues (h1.tables hs) (h1.config hs hc) (h1.queues hs hc hq)
  control hs hc hq := h2.control (h1.tables hs) (h1.config hs hc) (h1.control hs hc hq)

theorem Keeps.trans (h1 : Keeps A s t) (h2 : Keeps A t u) : Keeps A s u where
  toKeepsLaws := h1.toKeepsLaws.trans h2.toKeepsLaws
  locked hs hl hb := by
    obtain ⟨hsame1, hb1⟩ := h1.locked hs hl hb
    obtain ⟨hsame2, hb2⟩ := h2.locked (h1.tables hs) hsame1.1 hb1
    exact ⟨hsame1.trans hsame2, hb2⟩

/-- The same, read from the last change backwards. -/
theorem Keeps.after (h2 : Keeps A t u) (h1 : Keeps A s t) : Keeps A s u := h1.trans h2

/-- What was taken is sound if the laws of the state it was taken from say so. -/
theorem Keeps.discharge (h : Keeps A s t) (hA : B → EntryLaws s → A) : Keeps B s t where
  toKeepsLaws := { h.toKeepsLaws with
    entries := fun hb hs hc he => h.entries (hA hb he) hs hc he
    counts := fun hb hs hc he => h.counts (hA hb he) hs hc he }
  locked := h.locked

/-- A change need keep the laws only from a state whose tables are in their canonical form. -/
theorem Keeps.of_tables (hpending : t.pending = s.pending) (hnow : t.now = s.now) (h : TablesCanonical s → Keeps A s t) :
    Keeps A s t where
  pending := hpending
  now := hnow
  tables hs := (h hs).tables hs
  config hs := (h hs).config hs
  entries ha hs := (h hs).entries ha hs
  counts ha hs := (h hs).counts ha hs
  queues hs := (h hs).queues hs
  control hs := (h hs).control hs
  locked hs := (h hs).locked hs

/-! ### Changes outside the laws -/

/-- The state with all that no law speaks of blanked, and the inboxes and counters, whose laws stand alone. -/
def State.governed (s : State) : State :=
  { s with
    straps := 0
    vote.inbox := [], vote.stopReport := false
    monitor.inbox := []
    loc.epoch := 0, loc.reports := [], loc.frames := [], loc.siteReports := [], loc.stopReports := []
    reach.floodOverride := false, reach.inbox := [], reach.siteReports := []
    egress.siteTx := none, egress.coreTx := none, egress.reports := []
    mgmt.causes := ⟨false, false, false⟩, mgmt.unit := 0, mgmt.inbox := [], mgmt.conditions := 0, mgmt.alertReports := []
    mgmt.counters := [] }

/-- Tables but the counters. -/
theorem tablesCanonical_iff_governed (s : State) :
    TablesCanonical s ↔ TablesCanonical s.governed ∧ s.mgmt.counters.canonical Counter.zero = true := by
  unfold TablesCanonical
  exact ⟨fun ⟨h1, h2, h3, h4, h5, h6, h7, h8, h9, h10, h11, h12, h13⟩ =>
      ⟨⟨h1, h2, h3, h4, h5, h6, h7, h8, h9, h10, h11, h12, rfl⟩, h13⟩,
    fun ⟨⟨h1, h2, h3, h4, h5, h6, h7, h8, h9, h10, h11, h12, _⟩, h13⟩ =>
      ⟨h1, h2, h3, h4, h5, h6, h7, h8, h9, h10, h11, h12, h13⟩⟩

/-- A change of what no law speaks of, of inboxes and of counters keeps every law if it keeps those of inboxes and counters. -/
theorem Keeps.of_governed (h : t.governed = s.governed)
    (hcounters : s.mgmt.counters.canonical Counter.zero = true → t.mgmt.counters.canonical Counter.zero = true)
    (hinboxes : A → InboxesSound s → InboxesSound t) : Keeps A s t where
  pending := (congrArg State.pending h : t.governed.pending = s.governed.pending)
  now := (congrArg State.now h : t.governed.now = s.governed.now)
  tables hs := by
    rw [tablesCanonical_iff_governed] at hs ⊢
    exact ⟨h ▸ hs.1, hcounters hs.2⟩
  config _ hc := (h ▸ hc : ConfigurationInRange t.governed)
  entries ha _ _ he :=
    ⟨(h ▸ he.1 : EntriesSound t.governed), (h ▸ he.2.1 : EntryTableSound t.governed), hinboxes ha he.2.2⟩
  counts _ _ _ _ hn := (h ▸ hn : CountLaws t.governed)
  queues _ _ hq := (h ▸ hq : QueueLaws t.governed)
  control _ _ hq := (h ▸ hq : ControlLaws t.governed)
  locked _ hl hb :=
    ⟨(h.symm ▸ (⟨hl, fun _ => rfl, rfl, rfl, rfl, fun _ _ => rfl⟩ : ConfigurationSame s.governed s.governed) :
      ConfigurationSame s.governed t.governed), (h ▸ hb : t.governed.mgmt.batch = none)⟩

/-- A change of what no law speaks of. -/
theorem Keeps.aside (h : t.governed = s.governed) (hcounters : t.mgmt.counters = s.mgmt.counters)
    (hinbox : t.vote.inbox = s.vote.inbox) (hreports : t.loc.reports = s.loc.reports) (hframes : t.loc.frames = s.loc.frames) :
    Keeps A s t := by
  refine .of_governed h (fun hc => hcounters ▸ hc) fun _ hi => ?_
  unfold InboxesSound
  rw [hinbox, hreports, hframes]
  exact hi

theorem Keeps.refl (s : State) : Keeps A s s := .aside rfl rfl rfl rfl rfl

/-! ### Counting, reporting and offering -/

theorem State.countBy_keeps (n : Nat) (c : CounterId) (s : State) : Keeps A s (s.countBy n c) :=
  .of_governed rfl Tab.canonical_put fun _ hi => hi

theorem State.count_keeps (c : CounterId) (s : State) : Keeps A s (s.count c) := s.countBy_keeps 1 c

theorem State.reportAlert_keeps (c : AlertClass) (v : Bool) (s : State) : Keeps A s (s.reportAlert c v) :=
  .aside rfl rfl rfl rfl rfl

theorem State.reportChange_keeps (c : AlertClass) (a b : Bool) (s : State) : Keeps A s (s.reportChange c a b) := by
  unfold State.reportChange
  split
  · exact .refl s
  · exact s.reportAlert_keeps c b

theorem State.reportConditions_keeps (b s : State) : Keeps A s (State.reportConditions b s) :=
  (State.reportChange_keeps _ _ _ s).trans (State.reportChange_keeps ..)

/-- An event at the location engine keeps the laws if what it does keeps them. -/
theorem State.locEvent_keeps {f : State → State} (h : Keeps A s (f s)) : Keeps A s (s.locEvent f) :=
  h.trans (State.reportConditions_keeps s (f s))

theorem State.dropped_keeps (c : CounterId) (v : Offer) (s : State) : Keeps A s (s.dropped c v) := by
  cases v with
  | admitted => exact .refl s
  | noSite => exact s.count_keeps c
  | noRoom => exact (s.count_keeps c).trans (State.reportAlert_keeps ..)

/-! ### The queues -/

/-- The frames held in the lanes of one kind, as a total over a table. -/
theorem heldFrames_eq_total {α : Type} (lanes : Tab (List α)) : heldFrames lanes = Tab.total List.length lanes := rfl

/-- A lane written: the frames held change by the difference. -/
theorem heldFrames_put {α : Type} [DecidableEq α] {lanes : Tab (List α)} (hs : lanes.canonical [] = true) (x : Nat)
    (lane : List α) : heldFrames (lanes.put [] x lane) + (lanes.atD x []).length = heldFrames lanes + lane.length := by
  rw [heldFrames_eq_total, heldFrames_eq_total, ← Tab.total_put List.length (d := []) rfl (Tab.canonical_iff.mp hs).1 x lane,
    Tab.figure_eq_atD List.length (d := []) rfl]

/-- A change of the queues, of the credits and of the turn pointer keeps the laws if it keeps theirs. -/
theorem Keeps.of_queues {control : Tab (List ControlFrame)} {voice : Tab (List DownlinkCopy)} {core : List CoreFrame} {pool : Nat}
    {credits : Tab Nat} {pointer : Nat}
    (htables : TablesCanonical s → control.canonical [] = true ∧ voice.canonical [] = true ∧ credits.canonical 0 = true)
    (hfigures : ConfigurationInRange s → FiguresInRange s → (∀ x, credits.atD x 0 ≤ 255) ∧ 1 ≤ pointer ∧ pointer ≤ 40)
    (hpool : TablesCanonical s → s.egress.poolUsed = heldFrames s.egress.control + heldFrames s.egress.voice + s.egress.core.length →
      s.egress.poolUsed ≤ 1536 → pool = heldFrames control + heldFrames voice + core.length ∧ pool ≤ 1536)
    (hcapacity : ConfigurationInRange s → QueueCapacity s →
      (∀ x, (control.atD x []).length ≤ 16) ∧ (∀ x, (voice.atD x []).length ≤ 96) ∧ core.length ≤ 256) :
    Keeps A s
      { s with
        egress.control := control, egress.voice := voice, egress.core := core, egress.poolUsed := pool
        egress.credits := credits, egress.pointer := pointer } where
  pending := rfl
  now := rfl
  tables hs := by
    obtain ⟨hcontrol, hvoice, hcredits⟩ := htables hs
    obtain ⟨h1, h2, h3, h4, h5, h6, h7, h8, h9, -, -, -, h13⟩ := hs
    exact ⟨h1, h2, h3, h4, h5, h6, h7, h8, h9, hcontrol, hvoice, hcredits, h13⟩
  config _ hc := hc
  entries _ _ _ he := he
  counts _ _ _ _ hn := hn
  queues hs hc hq := ⟨hpool hs hq.1.1 hq.1.2, hcapacity hc hq.2⟩
  control _ hc hq := by
    obtain ⟨hepoch, hlock, hcalls, hfig, hdis⟩ := hq
    obtain ⟨hcredits, hpointer⟩ := hfigures hc hfig
    exact ⟨hepoch, hlock, hcalls, ⟨hcredits, hpointer, hfig.2.2⟩, hdis⟩
  locked _ hl hb := ⟨⟨hl, fun _ => rfl, rfl, rfl, rfl, fun _ _ => rfl⟩, hb⟩

theorem length_atD_put_le {α : Type} [DecidableEq α] {lanes : Tab (List α)} {n x : Nat} {lane : List α}
    (h : ∀ y, (lanes.atD y []).length ≤ n) (hlane : lane.length ≤ n) (y : Nat) : ((lanes.put [] x lane).atD y []).length ≤ n := by
  rw [Tab.atD_put]
  split
  · exact hlane
  · exact h y

/-- A frame joins a control lane that has room, from a pool that has room. -/
theorem State.pushControl_keeps {x : Nat} (f : ControlFrame) (hlane : (s.controlLane x).length < 16)
    (hpool : s.egress.poolUsed < 1536) : Keeps A s (s.pushControl x f) := by
  refine .of_queues (fun hs => ?_) (fun _ hf => ⟨hf.1, hf.2.1⟩) (fun hs hheld _ => ?_) fun _ hq => ?_
  · obtain ⟨-, -, -, -, -, -, -, -, -, hcontrol, hvoice, hcredits, -⟩ := hs
    exact ⟨Tab.canonical_put hcontrol, hvoice, hcredits⟩
  · obtain ⟨-, -, -, -, -, -, -, -, -, hcontrol, -, -, -⟩ := hs
    have hput := heldFrames_put hcontrol x (s.controlLane x ++ [f])
    rw [List.length_append, List.length_singleton] at hput
    change _ + (s.controlLane x).length = _ at hput
    omega
  · refine ⟨length_atD_put_le hq.1 ?_, hq.2⟩
    rw [List.length_append, List.length_singleton]
    exact hlane

/-- A frame joins a voice lane that has room, from a pool that has room. -/
theorem State.pushVoice_keeps {x : Nat} (f : DownlinkCopy) (hlane : ConfigurationInRange s → (s.voiceLane x).length < 96)
    (hpool : s.egress.poolUsed < 1536) : Keeps A s (s.pushVoice x f) := by
  refine .of_queues (fun hs => ?_) (fun _ hf => ⟨hf.1, hf.2.1⟩) (fun hs hheld _ => ?_) fun hc hq => ?_
  · obtain ⟨-, -, -, -, -, -, -, -, -, hcontrol, hvoice, hcredits, -⟩ := hs
    exact ⟨hcontrol, Tab.canonical_put hvoice, hcredits⟩
  · obtain ⟨-, -, -, -, -, -, -, -, -, -, hvoice, -, -⟩ := hs
    have hput := heldFrames_put hvoice x (s.voiceLane x ++ [f])
    rw [List.length_append, List.length_singleton] at hput
    change _ + (s.voiceLane x).length = _ at hput
    omega
  · refine ⟨hq.1, length_atD_put_le hq.2.1 ?_, hq.2.2⟩
    rw [List.length_append, List.length_singleton]
    exact hlane hc

/-- A frame joins a core queue that has room, from a pool that has room. -/
theorem State.pushCore_keeps (f : CoreFrame) (hcore : s.egress.core.length < 256) (hpool : s.egress.poolUsed < 1536) :
    Keeps A s (s.pushCore f) := by
  refine .of_queues (fun hs => ?_) (fun _ hf => ⟨hf.1, hf.2.1⟩) (fun hs hheld _ => ?_) fun _ hq => ?_
  · obtain ⟨-, -, -, -, -, -, -, -, -, hcontrol, hvoice, hcredits, -⟩ := hs
    exact ⟨hcontrol, hvoice, hcredits⟩
  · rw [List.length_append, List.length_singleton]
    omega
  · exact ⟨hq.1, hq.2.1, by rw [List.length_append, List.length_singleton]; exact hcore⟩

/-- An admitted frame finds room in its control lane and in the pool. -/
theorem State.room_of_controlVerdict {x : Nat} (h : s.controlVerdict x = .admitted) :
    (s.controlLane x).length < 16 ∧ s.egress.poolUsed < 1536 := by
  cases hopen : s.laneOpen x with
  | false => simp [State.controlVerdict_of_closed hopen] at h
  | true =>
    rw [State.controlVerdict_of_open hopen] at h
    refine Classical.byContradiction fun hroom => ?_
    simp [if_neg hroom] at h

/-- An admitted copy finds room in its voice lane and in the pool. -/
theorem State.room_of_voiceVerdict {x : Nat} (h : s.voiceVerdict x = .admitted) :
    (s.voiceLane x).length < (s.site x).cfg.voiceDepth ∧ s.egress.poolUsed < 1536 := by
  cases hopen : s.laneOpen x with
  | false => simp [State.voiceVerdict_of_closed hopen] at h
  | true =>
    rw [State.voiceVerdict_of_open hopen] at h
    refine Classical.byContradiction fun hroom => ?_
    rw [if_neg (by omega)] at h
    cases h

/-- An admitted frame finds room in the core queue and in the pool. -/
theorem State.room_of_coreVerdict {f : CoreFrame} (h : s.coreVerdict f = .admitted) :
    s.egress.core.length < 256 ∧ s.egress.poolUsed < 1536 := by
  refine Classical.byContradiction fun hroom => ?_
  cases f with
  | response r =>
    rw [State.coreVerdict_response, if_neg (by omega)] at h
    cases h
  | uplink | notice | alert =>
    rw [State.coreVerdict_of_ne_response (by simp), if_neg (by omega)] at h
    cases h

theorem SiteConfig.default_inRange : SiteConfig.default.inRange := by unfold SiteConfig.inRange; decide

/-- Every site's configured fields lie in their ranges, listed or not. -/
theorem ConfigurationInRange.site_inRange (h : ConfigurationInRange s) (x : Nat) : (s.site x).cfg.inRange :=
  Tab.atD_of_forall (P := fun r => r.cfg.inRange) SiteConfig.default_inRange (fun p hp => (h.1 p hp).2) x

theorem State.offerControl_keeps (x : Nat) (f : ControlFrame) (s : State) : Keeps A s (s.offerControl x f).1 := by
  unfold State.offerControl
  split
  next h => exact State.pushControl_keeps f (State.room_of_controlVerdict h).1 (State.room_of_controlVerdict h).2
  next => exact State.dropped_keeps ..

theorem State.offerVoice_keeps (x : Nat) (f : DownlinkCopy) (s : State) : Keeps A s (s.offerVoice x f).1 := by
  unfold State.offerVoice
  split
  next h =>
    obtain ⟨hlane, hpool⟩ := State.room_of_voiceVerdict h
    refine State.pushVoice_keeps f (fun hc => ?_) hpool
    obtain ⟨-, -, -, -, -, -, -, -, -, -, -, -, -, -, hdepth⟩ := hc.site_inRange x
    omega
  next => exact State.dropped_keeps ..

theorem State.offerCore_keeps (f : CoreFrame) (s : State) : Keeps A s (s.offerCore f) := by
  unfold State.offerCore
  split
  next h => exact State.pushCore_keeps f (State.room_of_coreVerdict h).1 (State.room_of_coreVerdict h).2
  next => exact State.dropped_keeps ..

theorem State.respond_keeps (tag : BitVec 16) (res : Result) (body : List Byte) (s : State) : Keeps A s (s.respond tag res body) :=
  s.offerCore_keeps _

theorem State.notify_keeps (kind : NoticeKind) (radio : RadioId) (x y : Nat) (g : Talkgroup) (cause : NoticeCause) (s : State) :
    Keeps A s (s.notify kind radio x y g cause) :=
  s.offerCore_keeps _

theorem State.issueDirective_keeps (d : Directive) (s : State) : Keeps A s (s.issueDirective d) := by
  unfold State.issueDirective
  have hoffer : Keeps A s (s.offerControl d.site (.directive d)).1 := s.offerControl_keeps _ _
  split
  · split
    next heq => rwa [heq] at hoffer
    next heq => rw [heq] at hoffer; exact hoffer.trans (State.count_keeps ..)
  · exact .refl s

theorem State.release_keeps (e : Entry) (x : Nat) (s : State) : Keeps A s (s.release e x) := s.issueDirective_keeps _

theorem State.cancel_keeps (e : Entry) (h : Handover) (s : State) : Keeps A s (s.cancel e h) := s.issueDirective_keeps _

theorem State.leaveSites_keeps (e : Entry) (s : State) : Keeps A s (s.leaveSites e) := by
  unfold State.leaveSites
  split
  · exact .refl s
  · exact s.release_keeps e 0
  · exact s.release_keeps e 0
  · exact (s.cancel_keeps e _).trans (State.release_keeps ..)
  · exact s.release_keeps e 0

end Sys2Proof.Machine

/-! Soundness of a radio entry (tables 1-1 and 1-2, R3) and of its candidate list, and what each change of an entry keeps of it. -/

namespace Sys2Proof.Machine

/-! ### Choices made by a fold -/

/-- A fold that keeps one element of a list or another ends with one of them. -/
theorem foldl_choice_mem {α : Type} {f : Option α → α → Option α} (hf : ∀ v c, f v c = some c ∨ f v c = v) {l : List α} {v : Option α}
    {b : α} (h : l.foldl f v = some b) : b ∈ l ∨ v = some b := by
  induction l generalizing v with
  | nil => exact .inr h
  | cons c l ih =>
    rcases ih h with hmem | hv
    · exact .inl (List.mem_cons_of_mem c hmem)
    · rcases hf v c with hc | hkept
      · rw [hc, Option.some.injEq] at hv
        exact .inl (hv ▸ List.mem_cons_self)
      · exact .inr (hkept ▸ hv)

/-- A fold that always keeps an element ends with one, unless there was none. -/
theorem foldl_choice_eq_none {α : Type} {f : Option α → α → Option α} (hf : ∀ v c, (f v c).isSome = true) {l : List α}
    (h : l.foldl f none = none) : l = [] := by
  rcases List.eq_nil_or_concat l with hnil | ⟨l', c, rfl⟩
  · exact hnil
  · rw [List.concat_eq_append, List.foldl_append] at h
    have hsome := hf (l'.foldl f none) c
    rw [List.foldl_cons, List.foldl_nil] at h
    rw [h] at hsome
    cases hsome

/-! ### Candidate lists -/

/-- A candidate list as R3 describes it: in rising order of site, at most 5, each of a site the part has and within the score range. -/
structure CandsSound (cs : List Candidate) : Prop where
  rising : (cs.map (·.site)).Pairwise (· < ·)
  few : cs.length ≤ 5
  each : ∀ c ∈ cs, validSite c.site = true ∧ c.score ≤ 1008

/-- A site has a record in a candidate list. -/
def Hears (cs : List Candidate) (x : Nat) : Prop := ∃ c ∈ cs, c.site = x

theorem mem_insertCand {c d : Candidate} {cs : List Candidate} : d ∈ insertCand c cs ↔ d = c ∨ d ∈ cs := by
  induction cs with
  | nil => simp [insertCand]
  | cons e cs ih =>
    unfold insertCand
    split
    · simp
    · simp [ih, or_left_comm]

theorem length_insertCand (c : Candidate) (cs : List Candidate) : (insertCand c cs).length = cs.length + 1 := by
  induction cs with
  | nil => rfl
  | cons e cs ih =>
    unfold insertCand
    split
    · rfl
    · simp [ih]

theorem rising_insertCand {c : Candidate} {cs : List Candidate} (h : (cs.map (·.site)).Pairwise (· < ·)) (hnew : ¬Hears cs c.site) :
    ((insertCand c cs).map (·.site)).Pairwise (· < ·) := by
  induction cs with
  | nil => simp [insertCand]
  | cons e cs ih =>
    rw [List.map_cons, List.pairwise_cons] at h
    obtain ⟨hlow, hrest⟩ := h
    unfold insertCand
    split
    next hlt =>
      simp only [List.map_cons, List.pairwise_cons, List.mem_cons, forall_eq_or_imp]
      exact ⟨⟨hlt, fun x hx => Nat.lt_trans hlt (hlow x hx)⟩, hlow, hrest⟩
    next hge =>
      have hne : e.site ≠ c.site := fun heq => hnew ⟨e, List.mem_cons_self, heq⟩
      simp only [List.map_cons, List.pairwise_cons, List.mem_map, mem_insertCand]
      refine ⟨?_, ih hrest fun ⟨d, hd, hsite⟩ => hnew ⟨d, List.mem_cons_of_mem e hd, hsite⟩⟩
      rintro x ⟨d, rfl | hd, rfl⟩
      · omega
      · exact hlow _ (List.mem_map_of_mem hd)

theorem CandsSound.filter {cs : List Candidate} (h : CandsSound cs) (p : Candidate → Bool) : CandsSound (cs.filter p) where
  rising := h.rising.sublist (List.filter_sublist.map _)
  few := Nat.le_trans (List.length_filter_le p cs) h.few
  each c hc := h.each c (List.mem_filter.mp hc).1

theorem CandsSound.insert {cs : List Candidate} {c : Candidate} (h : CandsSound cs) (hfew : cs.length < 5) (hnew : ¬Hears cs c.site)
    (hsite : validSite c.site = true) (hscore : c.score ≤ 1008) : CandsSound (insertCand c cs) where
  rising := rising_insertCand h.rising hnew
  few := by rw [length_insertCand]; exact hfew
  each d hd := by
    rcases mem_insertCand.mp hd with rfl | hd
    · exact ⟨hsite, hscore⟩
    · exact h.each d hd

theorem hears_insertCand {c : Candidate} {cs : List Candidate} {x : Nat} : Hears (insertCand c cs) x ↔ c.site = x ∨ Hears cs x := by
  simp only [Hears, mem_insertCand]
  exact ⟨fun ⟨d, hd, hx⟩ => hd.elim (fun h => .inl (h ▸ hx)) fun h => .inr ⟨d, h, hx⟩,
    fun h => h.elim (fun h => ⟨c, .inl rfl, h⟩) fun ⟨d, hd, hx⟩ => ⟨d, .inr hd, hx⟩⟩

theorem hears_dropCand {cs : List Candidate} {x y : Nat} : Hears (dropCand y cs) x ↔ Hears cs x ∧ x ≠ y := by
  simp only [Hears, dropCand, List.mem_filter, bne_iff_ne]
  exact ⟨fun ⟨d, ⟨hd, hne⟩, hx⟩ => ⟨⟨d, hd, hx⟩, hx ▸ hne⟩, fun ⟨⟨d, hd, hx⟩, hne⟩ => ⟨d, ⟨hd, hx ▸ hne⟩, hx⟩⟩

theorem candOf_isSome_iff {cs : List Candidate} {x : Nat} : (candOf x cs).isSome = true ↔ Hears cs x := by
  simp [candOf, Hears]

/-- Dropping a record that is there makes room for another. -/
theorem length_dropCand_lt {cs : List Candidate} {v : Candidate} (hv : v ∈ cs) : (dropCand v.site cs).length < cs.length := by
  rw [dropCand]
  refine Nat.lt_of_le_of_ne (List.length_filter_le _ cs) fun heq => ?_
  have hall := List.length_filter_eq_length_iff.mp heq v hv
  simp at hall

/-! ### The update of a candidate list -/

theorem ClassPolicy.inRange.weight {p : ClassPolicy} (h : p.inRange) : 1 ≤ p.weight ∧ p.weight ≤ 16 := ⟨h.1, h.2.1⟩

/-- Smoothing moves a score toward the target and never past it (R29). -/
theorem smooth_score_le {p : ClassPolicy} (hp : p.inRange) (now : Epoch) {a : Option Nat} (ha : ∀ q, a = some q → q ≤ 63)
    {c : Candidate} (hc : c.score ≤ 1008) : (smooth p now a c).score ≤ 1008 := by
  obtain ⟨hlow, hhigh⟩ := hp.weight
  have heff : effScore p now c ≤ 1008 := by unfold effScore; omega
  have htarget : 16 * a.getD 0 ≤ 1008 := by
    cases a with
    | none => simp
    | some q => have := ha q rfl; simp; omega
  change (_ : Int).toNat ≤ 1008
  generalize hd : (16 * ((a.getD 0 : Nat) : Int)) - ((effScore p now c : Nat) : Int) = d
  have hproduct : d * (p.weight : Int) ≤ max 0 (16 * d) := by
    rcases Int.le_total 0 d with hpos | hneg
    · have : d * (p.weight : Int) ≤ d * 16 := Int.mul_le_mul_of_nonneg_left (by omega) hpos
      omega
    · have : d * (p.weight : Int) ≤ 0 := Int.mul_nonpos_of_nonpos_of_nonneg hneg (by omega)
      omega
  omega

theorem hears_map_smooth {p : ClassPolicy} {now : Epoch} {site : Nat} {a : Option Nat} {cs : List Candidate} {x : Nat} :
    Hears (cs.map fun c => if c.site = site then smooth p now a c else c) x ↔ Hears cs x := by
  have hsite : ∀ c : Candidate, (if c.site = site then Machine.smooth p now a c else c).site = c.site := fun c => by split <;> rfl
  constructor
  · rintro ⟨_, hmem, hx⟩
    obtain ⟨c, hc, rfl⟩ := List.mem_map.mp hmem
    exact ⟨c, hc, (hsite c).symm.trans hx⟩
  · rintro ⟨c, hc, hx⟩
    exact ⟨_, List.mem_map_of_mem hc, (hsite c).trans hx⟩

theorem CandsSound.smooth {p : ClassPolicy} (hp : p.inRange) {now : Epoch} {site : Nat} {a : Option Nat}
    (ha : ∀ q, a = some q → q ≤ 63) {cs : List Candidate} (h : CandsSound cs) :
    CandsSound (cs.map fun c => if c.site = site then smooth p now a c else c) where
  rising := by
    have hsites : (cs.map fun c => if c.site = site then Machine.smooth p now a c else c).map (·.site) = cs.map (·.site) := by
      rw [List.map_map]
      refine List.map_congr_left fun c _ => ?_
      simp only [Function.comp_apply]
      split <;> rfl
    rw [hsites]
    exact h.rising
  few := by rw [List.length_map]; exact h.few
  each d hd := by
    obtain ⟨c, hc, rfl⟩ := List.mem_map.mp hd
    obtain ⟨hsite, hscore⟩ := h.each c hc
    split
    · exact ⟨hsite, smooth_score_le hp now ha hscore⟩
    · exact ⟨hsite, hscore⟩

/-- A victim is a record of the list whose site may be replaced. -/
theorem victim_mem {p : ClassPolicy} {now : Epoch} {kept : Nat → Bool} {cs : List Candidate} {v : Candidate}
    (h : victim p now kept cs = some v) : v ∈ cs ∧ kept v.site = false := by
  have hmem : v ∈ cs.filter fun c => !kept c.site := by
    refine (foldl_choice_mem (fun o c => ?_) h).resolve_right (by simp)
    cases o with
    | none => exact .inl rfl
    | some d => dsimp only; split <;> simp
  simpa using hmem

/-- There is no victim only if every record's site is kept. -/
theorem victim_eq_none {p : ClassPolicy} {now : Epoch} {kept : Nat → Bool} {cs : List Candidate}
    (h : victim p now kept cs = none) : ∀ c ∈ cs, kept c.site = true := by
  have hnil : (cs.filter fun c => !kept c.site) = [] := by
    refine foldl_choice_eq_none (fun o c => ?_) h
    cases o with
    | none => rfl
    | some d => dsimp only; split <;> rfl
  simpa [List.filter_eq_nil_iff] using hnil

/-- A new record in the list: it stays sound, keeps the sites that are kept, and, forced, holds the new site. -/
theorem addCand_sound {p : ClassPolicy} {now : Epoch} {kept : Nat → Bool} {force : Bool} {new : Candidate} {cs : List Candidate}
    (h : CandsSound cs) (hnew : ¬Hears cs new.site) (hsite : validSite new.site = true) (hscore : new.score ≤ 1008) :
    CandsSound (addCand p now kept force new cs) := by
  unfold addCand
  split
  next hroom => exact h.insert hroom hnew hsite hscore
  next =>
    split
    next => exact h
    next v hv =>
      split
      · have hfew := length_dropCand_lt (victim_mem hv).1
        have hfull := h.few
        exact (h.filter _).insert (Nat.lt_of_lt_of_le hfew hfull) (fun hh => hnew (hears_dropCand.mp hh).1) hsite hscore
      · exact h

theorem hears_addCand {p : ClassPolicy} {now : Epoch} {kept : Nat → Bool} {force : Bool} {new : Candidate} {cs : List Candidate}
    {x : Nat} (hkept : kept x = true) (hx : Hears cs x) : Hears (addCand p now kept force new cs) x := by
  unfold addCand
  split
  next => exact hears_insertCand.mpr (.inr hx)
  next =>
    split
    next => exact hx
    next v hv =>
      split
      · have hne : x ≠ v.site := fun heq => by rw [heq, (victim_mem hv).2] at hkept; cases hkept
        exact hears_insertCand.mpr (.inr (hears_dropCand.mpr ⟨hx, hne⟩))
      · exact hx

/-- Among more than two records one may be replaced, if only two sites are kept. -/
theorem exists_victim {p : ClassPolicy} {now : Epoch} {kept : Nat → Bool} {cs : List Candidate} {a b : Nat} (h : CandsSound cs)
    (hfull : 5 ≤ cs.length) (hkept : ∀ x, kept x = true → x = a ∨ x = b) : ∃ v, victim p now kept cs = some v := by
  cases hv : victim p now kept cs with
  | some v => exact ⟨v, rfl⟩
  | none =>
    have hall := victim_eq_none hv
    have hsub : cs.map (·.site) ⊆ [a, b] := by
      intro x hx
      obtain ⟨c, hc, rfl⟩ := List.mem_map.mp hx
      simpa using hkept _ (hall c hc)
    have hnodup : (cs.map (·.site)).Nodup := h.rising.imp (fun hlt => Nat.ne_of_lt hlt)
    have hle := hnodup.length_le_of_subset hsub
    simp at hle
    omega

theorem hears_addCand_new {p : ClassPolicy} {now : Epoch} {kept : Nat → Bool} {new : Candidate} {cs : List Candidate} {a b : Nat}
    (h : CandsSound cs) (hkept : ∀ x, kept x = true → x = a ∨ x = b) : Hears (addCand p now kept true new cs) new.site := by
  unfold addCand
  split
  next => exact hears_insertCand.mpr (.inl rfl)
  next hfull =>
    obtain ⟨v, hv⟩ := exists_victim (p := p) (now := now) h (by simpa [Config.maxCandidates] using hfull) hkept
    rw [hv]
    exact hears_insertCand.mpr (.inl rfl)

theorem updateCands_sound {p : ClassPolicy} (hp : p.inRange) {now : Epoch} {kept : Nat → Bool} {force : Bool} {site : Nat}
    {a : Option Nat} (ha : ∀ q, a = some q → q ≤ 63) (hsite : validSite site = true) {cs : List Candidate} (h : CandsSound cs) :
    CandsSound (updateCands p now kept force site a cs) := by
  unfold updateCands
  split
  next => exact h.smooth hp ha
  next hnew =>
    cases a with
    | none => exact h
    | some q =>
      have hq := ha q rfl
      exact addCand_sound h (fun hh => hnew (candOf_isSome_iff.mpr hh)) hsite (by simp only [newCandidate]; omega)

theorem hears_updateCands {p : ClassPolicy} {now : Epoch} {kept : Nat → Bool} {force : Bool} {site : Nat} {a : Option Nat}
    {cs : List Candidate} {x : Nat} (hkept : kept x = true) (hx : Hears cs x) : Hears (updateCands p now kept force site a cs) x := by
  unfold updateCands
  split
  next => exact hears_map_smooth.mpr hx
  next =>
    cases a with
    | none => exact hx
    | some q => exact hears_addCand hkept hx

theorem hears_updateCands_site {p : ClassPolicy} {now : Epoch} {kept : Nat → Bool} {site q : Nat} {cs : List Candidate} {a b : Nat}
    (h : CandsSound cs) (hkept : ∀ x, kept x = true → x = a ∨ x = b) :
    Hears (updateCands p now kept true site (some q) cs) site := by
  unfold updateCands
  split
  next hheard => exact hears_map_smooth.mpr (candOf_isSome_iff.mp hheard)
  next => exact hears_addCand_new h hkept

/-! ### Soundness of an entry -/

/-- What soundness asks of an entry whatever its state. -/
structure Entry.BodySound (e : Entry) : Prop where
  radio : validRadio e.radio = true
  talkgroup : e.talkgroup ≠ 0xFFFF
  dwell : e.dwell ≤ 255
  shadow : e.shadow ≤ 255
  cands : CandsSound e.cands
  failed : ∀ f, e.failed = some f → validSite f.site = true ∧ 1 ≤ f.remaining ∧ f.remaining ≤ 8

/-- A handover as R49 gives one, of an entry with this serving site. -/
structure Handover.Sound (h : Handover) (serving : Nat) : Prop where
  target : validSite h.target = true
  ne_serving : h.target ≠ serving
  retries : h.retries ≤ 3
  age : h.age ≤ 255

theorem not_validSite_zero : validSite 0 = false := rfl

theorem ne_zero_of_validSite {x : Nat} (h : validSite x = true) : x ≠ 0 := by
  rintro rfl
  cases h

theorem Entry.sound.body {e : Entry} (h : e.sound) : e.BodySound := by
  obtain ⟨hradio, htalkgroup, hdwell, hshadow, -, hrising, hfew, heach, -, -, hfailed⟩ := h
  exact ⟨hradio, htalkgroup, hdwell, hshadow, ⟨hrising, hfew, heach⟩, hfailed⟩

theorem Entry.sound.serving {e : Entry} (h : e.sound) (hne : e.serving ≠ 0) : validSite e.serving = true ∧ Hears e.cands e.serving := by
  obtain ⟨-, -, -, -, hstate, -, -, -, hserving, -, -⟩ := h
  refine ⟨?_, hserving hne⟩
  cases hs : e.state <;> rw [hs] at hstate
  case unattached => exact absurd hstate.1 hne
  case attached | shadow => exact hstate.1
  case moving => exact hstate.1.resolve_left hne

theorem Entry.sound.unattached {e : Entry} (h : e.sound) (hs : e.state = .unattached) : e.serving = 0 ∧ e.handover = none := by
  obtain ⟨-, -, -, -, hstate, -⟩ := h
  rwa [hs] at hstate

theorem Entry.sound.settled {e : Entry} (h : e.sound) (hs : e.state = .attached ∨ e.state = .shadow) :
    validSite e.serving = true ∧ e.handover = none := by
  obtain ⟨-, -, -, -, hstate, -⟩ := h
  rcases hs with hs | hs <;> rwa [hs] at hstate

theorem Entry.sound.moving {e : Entry} (h : e.sound) (hs : e.state = .moving) :
    ∃ ho, e.handover = some ho ∧ ho.Sound e.serving ∧ Hears e.cands ho.target := by
  obtain ⟨-, -, -, -, hstate, -, -, -, -, htarget, -⟩ := h
  rw [hs] at hstate
  obtain ⟨-, ho, hho, h1, h2, h3, h4⟩ := hstate
  exact ⟨ho, hho, ⟨h1, h2, h3, h4⟩, htarget ho hho⟩

/-- A handover stands only in a MOVING entry. -/
theorem Entry.sound.handover {e : Entry} (h : e.sound) {ho : Handover} (hho : e.handover = some ho) :
    e.state = .moving ∧ ho.Sound e.serving ∧ Hears e.cands ho.target := by
  cases hs : e.state
  case unattached => rw [(h.unattached hs).2] at hho; cases hho
  case attached => rw [(h.settled (.inl hs)).2] at hho; cases hho
  case shadow => rw [(h.settled (.inr hs)).2] at hho; cases hho
  case moving =>
    obtain ⟨ho', hho', hsound⟩ := h.moving hs
    rw [hho', Option.some.injEq] at hho
    exact ⟨rfl, hho ▸ hsound⟩

theorem Entry.BodySound.unattached {e : Entry} (h : e.BodySound) (hs : e.state = .unattached) (hserving : e.serving = 0)
    (hhandover : e.handover = none) : e.sound := by
  refine ⟨h.radio, h.talkgroup, h.dwell, h.shadow, ?_, h.cands.rising, h.cands.few, h.cands.each, fun hne => absurd hserving hne,
    fun ho hho => ?_, h.failed⟩
  · rw [hs]; exact ⟨hserving, hhandover⟩
  · rw [hhandover] at hho; cases hho

theorem Entry.BodySound.settled {e : Entry} (h : e.BodySound) (hs : e.state = .attached ∨ e.state = .shadow)
    (hserving : validSite e.serving = true) (hheard : Hears e.cands e.serving) (hhandover : e.handover = none) : e.sound := by
  refine ⟨h.radio, h.talkgroup, h.dwell, h.shadow, ?_, h.cands.rising, h.cands.few, h.cands.each, fun _ => hheard,
    fun ho hho => ?_, h.failed⟩
  · rcases hs with hs | hs <;> rw [hs] <;> exact ⟨hserving, hhandover⟩
  · rw [hhandover] at hho; cases hho

theorem Entry.BodySound.moving {e : Entry} (h : e.BodySound) (hs : e.state = .moving)
    (hserving : e.serving ≠ 0 → validSite e.serving = true ∧ Hears e.cands e.serving) {ho : Handover} (hho : e.handover = some ho)
    (hsound : ho.Sound e.serving) (htarget : Hears e.cands ho.target) : e.sound := by
  refine ⟨h.radio, h.talkgroup, h.dwell, h.shadow, ?_, h.cands.rising, h.cands.few, h.cands.each, fun hne => (hserving hne).2,
    fun ho' hho' => ?_, h.failed⟩
  · rw [hs]
    exact ⟨Decidable.or_iff_not_imp_left.mpr fun hne => (hserving hne).1, ho, hho, hsound.target, hsound.ne_serving, hsound.retries, hsound.age⟩
  · rw [hho, Option.some.injEq] at hho'
    exact hho' ▸ htarget

/-- A change that leaves a sound entry where it is: state, serving site and target stay, and the list holds those it held of them. -/
theorem Entry.sound.of_stay {e e' : Entry} (h : e.sound) (hbody : e'.BodySound) (hstate : e'.state = e.state)
    (hserving : e'.serving = e.serving) (hnone : e.handover = none → e'.handover = none)
    (hsome : ∀ ho, e.handover = some ho → ∃ ho', e'.handover = some ho' ∧ ho'.target = ho.target ∧ ho'.retries ≤ 3 ∧ ho'.age ≤ 255)
    (hheard : ∀ x, e.uses x = true → Hears e.cands x → Hears e'.cands x) : e'.sound := by
  have huses : e.uses e.serving = true := by simp [Entry.uses]
  cases hs : e.state
  case unattached =>
    obtain ⟨h0, hn⟩ := h.unattached hs
    exact hbody.unattached (hstate.trans hs) (hserving.trans h0) (hnone hn)
  case attached =>
    obtain ⟨hv, hn⟩ := h.settled (.inl hs)
    exact hbody.settled (.inl (hstate.trans hs)) (hserving ▸ hv)
      (hserving ▸ hheard _ huses (h.serving (ne_zero_of_validSite hv)).2) (hnone hn)
  case shadow =>
    obtain ⟨hv, hn⟩ := h.settled (.inr hs)
    exact hbody.settled (.inr (hstate.trans hs)) (hserving ▸ hv)
      (hserving ▸ hheard _ huses (h.serving (ne_zero_of_validSite hv)).2) (hnone hn)
  case moving =>
    obtain ⟨ho, hho, hsound, htarget⟩ := h.moving hs
    obtain ⟨ho', hho', htgt, hretries, hage⟩ := hsome ho hho
    refine hbody.moving (hstate.trans hs) (fun hne => ?_) hho'
      ⟨htgt ▸ hsound.target, by rw [htgt, hserving]; exact hsound.ne_serving, hretries, hage⟩ ?_
    · rw [hserving] at hne ⊢
      exact ⟨(h.serving hne).1, hheard _ huses (h.serving hne).2⟩
    · rw [htgt]
      exact hheard _ (by simp [Entry.uses, hho]) htarget

/-- The sites an entry uses are two at most. -/
theorem Entry.uses_two (e : Entry) : ∃ a b, ∀ x, e.uses x = true → x = a ∨ x = b := by
  cases hh : e.handover with
  | none => exact ⟨e.serving, e.serving, fun x hx => .inl (by simpa [Entry.uses, hh] using hx)⟩
  | some ho => exact ⟨e.serving, ho.target, fun x hx => by simpa [Entry.uses, hh] using hx⟩

end Sys2Proof.Machine

/-! Writing an entry with its counts (R5, R106, R107): the loads, member counts and emergency counts as totals over the entries, and
what a write keeps. -/

namespace Sys2Proof.Machine

/-! ### Counts raised and lowered -/

theorem atD_raiseAt (xs : List Nat) (t : Tab Nat) (x : Nat) : (raiseAt xs t).atD x 0 = t.atD x 0 + xs.count x := by
  induction xs generalizing t with
  | nil => rfl
  | cons y ys ih =>
    change (raiseAt ys (t.put 0 y (t.atD y 0 + 1))).atD x 0 = _
    rw [ih, Tab.atD_put, List.count_cons]
    by_cases h : x = y
    · subst h; simp; omega
    · simp [h, Ne.symm h]

theorem atD_lowerAt (xs : List Nat) (t : Tab Nat) (x : Nat) : (lowerAt xs t).atD x 0 = t.atD x 0 - xs.count x := by
  induction xs generalizing t with
  | nil => rfl
  | cons y ys ih =>
    change (lowerAt ys (t.put 0 y (t.atD y 0 - 1))).atD x 0 = _
    rw [ih, Tab.atD_put, List.count_cons]
    by_cases h : x = y
    · subst h; simp; omega
    · simp [h, Ne.symm h]

theorem canonical_raiseAt {xs : List Nat} {t : Tab Nat} (h : t.canonical 0 = true) : (raiseAt xs t).canonical 0 = true := by
  induction xs generalizing t with
  | nil => exact h
  | cons y ys ih => exact ih (Tab.canonical_put h)

theorem canonical_lowerAt {xs : List Nat} {t : Tab Nat} (h : t.canonical 0 = true) : (lowerAt xs t).canonical 0 = true := by
  induction xs generalizing t with
  | nil => exact h
  | cons y ys ih => exact ih (Tab.canonical_put h)

/-- What is newly held counts as the difference, among lists without repetition. -/
theorem count_gained {α : Type} [DecidableEq α] [BEq α] [LawfulBEq α] (b : List α) {a : List α} (ha : a.Nodup) (x : α) :
    (gained b a).count x = a.count x - b.count x := by
  by_cases hmem : x ∈ b
  · have hnot : x ∉ gained b a := by simp [gained, hmem]
    have hle := List.nodup_iff_count.mp ha x
    have hpos := List.count_pos_iff.mpr hmem
    rw [List.count_eq_zero_of_not_mem hnot]
    omega
  · rw [List.count_eq_zero_of_not_mem hmem, Nat.sub_zero, gained, List.count_filter (by simpa using hmem)]

/-- One change after the other moves a count from what was held to what is. -/
theorem raise_lower_count {α : Type} [DecidableEq α] [BEq α] [LawfulBEq α] {b a : List α} (hb : b.Nodup) (ha : a.Nodup) (x : α) {n : Nat}
    (hn : b.count x ≤ n) : n - (gained a b).count x + (gained b a).count x + b.count x = n + a.count x := by
  rw [count_gained b ha, count_gained a hb]
  omega

/-! ### Memberships and rows -/

/-- The memberships of a list that count in a row at a site. -/
def inRow (rows : Tab GroupRow) (k x : Nat) (p : Talkgroup × Nat) : Bool := decide (rowOf rows p.1 = some k) && p.2 == x

theorem atD_changeMembers (rows : Tab GroupRow) {f : List Nat → Tab Nat → Tab Nat} {d : Nat → Nat → Nat}
    (hf : ∀ y t x, (f [y] t).atD x 0 = d (t.atD x 0) (if y = x then 1 else 0)) (hd0 : ∀ n, d n 0 = n)
    (hd : ∀ n i j, d (d n i) j = d n (i + j)) (ms : List (Talkgroup × Nat)) (m : Tab (Tab Nat)) (k x : Nat) :
    ((changeMembers rows f ms m).atD k []).atD x 0 = d ((m.atD k []).atD x 0) (ms.countP (inRow rows k x)) := by
  induction ms generalizing m with
  | nil => rw [changeMembers_nil, List.countP_nil, hd0]
  | cons p ms ih =>
    obtain ⟨g, y⟩ := p
    rw [List.countP_cons]
    cases hrow : rowOf rows g with
    | none =>
      have hstep : changeMembers rows f ((g, y) :: ms) m = changeMembers rows f ms m := by simp [changeMembers, hrow]
      rw [hstep, ih]
      simp [inRow, hrow]
    | some j =>
      have hstep : changeMembers rows f ((g, y) :: ms) m = changeMembers rows f ms (m.put [] j (f [y] (m.atD j []))) := by
        simp [changeMembers, hrow]
      rw [hstep, ih, Tab.atD_put]
      by_cases hk : k = j
      · subst hk
        rw [if_pos rfl, hf, hd, Nat.add_comm]
        simp [inRow, hrow]
      · rw [if_neg hk]
        simp [inRow, hrow, Ne.symm hk]

theorem atD_changeMembers_raiseAt (rows : Tab GroupRow) (ms : List (Talkgroup × Nat)) (m : Tab (Tab Nat)) (k x : Nat) :
    ((changeMembers rows raiseAt ms m).atD k []).atD x 0 = (m.atD k []).atD x 0 + ms.countP (inRow rows k x) :=
  atD_changeMembers rows (d := (· + ·)) (fun y t x => by rw [atD_raiseAt]; simp [List.count_singleton]) (fun _ => rfl)
    (fun _ _ _ => Nat.add_assoc ..) ms m k x

theorem atD_changeMembers_lowerAt (rows : Tab GroupRow) (ms : List (Talkgroup × Nat)) (m : Tab (Tab Nat)) (k x : Nat) :
    ((changeMembers rows lowerAt ms m).atD k []).atD x 0 = (m.atD k []).atD x 0 - ms.countP (inRow rows k x) :=
  atD_changeMembers rows (d := (· - ·)) (fun y t x => by rw [atD_lowerAt]; simp [List.count_singleton]) (fun _ => rfl)
    (fun _ _ _ => Nat.sub_sub ..) ms m k x

theorem atD_changeEmergencies (rows : Tab GroupRow) {f : List Nat → Tab Nat → Tab Nat} {d : Nat → Nat → Nat}
    (hf : ∀ y t x, (f [y] t).atD x 0 = d (t.atD x 0) (if y = x then 1 else 0)) (hd0 : ∀ n, d n 0 = n)
    (hd : ∀ n i j, d (d n i) j = d n (i + j)) (gs : List Talkgroup) (t : Tab Nat) (k : Nat) :
    (changeEmergencies rows f gs t).atD k 0 = d (t.atD k 0) (gs.countP fun g => decide (rowOf rows g = some k)) := by
  induction gs generalizing t with
  | nil => rw [changeEmergencies_nil, List.countP_nil, hd0]
  | cons g gs ih =>
    rw [List.countP_cons]
    cases hrow : rowOf rows g with
    | none =>
      have hstep : changeEmergencies rows f (g :: gs) t = changeEmergencies rows f gs t := by simp [changeEmergencies, hrow]
      rw [hstep, ih]
      simp
    | some j =>
      have hstep : changeEmergencies rows f (g :: gs) t = changeEmergencies rows f gs (f [j] t) := by
        simp [changeEmergencies, hrow]
      rw [hstep, ih, hf, hd, Nat.add_comm]
      simp

theorem atD_changeEmergencies_raiseAt (rows : Tab GroupRow) (gs : List Talkgroup) (t : Tab Nat) (k : Nat) :
    (changeEmergencies rows raiseAt gs t).atD k 0 = t.atD k 0 + gs.countP fun g => decide (rowOf rows g = some k) :=
  atD_changeEmergencies rows (d := (· + ·)) (fun y t x => by rw [atD_raiseAt]; simp [List.count_singleton]) (fun _ => rfl)
    (fun _ _ _ => Nat.add_assoc ..) gs t k

theorem atD_changeEmergencies_lowerAt (rows : Tab GroupRow) (gs : List Talkgroup) (t : Tab Nat) (k : Nat) :
    (changeEmergencies rows lowerAt gs t).atD k 0 = t.atD k 0 - gs.countP fun g => decide (rowOf rows g = some k) :=
  atD_changeEmergencies rows (d := (· - ·)) (fun y t x => by rw [atD_lowerAt]; simp [List.count_singleton]) (fun _ => rfl)
    (fun _ _ _ => Nat.sub_sub ..) gs t k

/-- Both levels of the member counts in canonical form. -/
def MembersCanonical (m : Tab (Tab Nat)) : Prop := m.canonical [] = true ∧ ∀ p ∈ m, p.2.canonical 0 = true

theorem MembersCanonical.atD {m : Tab (Tab Nat)} (h : MembersCanonical m) (k : Nat) : (m.atD k []).canonical 0 = true :=
  Tab.atD_of_forall (P := fun t : Tab Nat => t.canonical 0 = true) rfl h.2 k

theorem MembersCanonical.put {m : Tab (Tab Nat)} (h : MembersCanonical m) (k : Nat) {t : Tab Nat} (ht : t.canonical 0 = true) :
    MembersCanonical (m.put [] k t) := by
  refine ⟨Tab.canonical_put h.1, fun p hp => ?_⟩
  rcases Tab.mem_put hp with rfl | hp
  · exact ht
  · exact h.2 p hp

theorem MembersCanonical.changeMembers {f : List Nat → Tab Nat → Tab Nat}
    (hf : ∀ xs t, t.canonical 0 = true → (f xs t).canonical 0 = true) (rows : Tab GroupRow) (ms : List (Talkgroup × Nat))
    {m : Tab (Tab Nat)} (h : MembersCanonical m) : MembersCanonical (changeMembers rows f ms m) := by
  induction ms generalizing m with
  | nil => exact h
  | cons p ms ih =>
    refine ih ?_
    dsimp only
    split
    · exact h
    · exact h.put _ (hf _ _ (h.atD _))

theorem canonical_changeEmergencies {f : List Nat → Tab Nat → Tab Nat}
    (hf : ∀ xs t, t.canonical 0 = true → (f xs t).canonical 0 = true) (rows : Tab GroupRow) (gs : List Talkgroup) {t : Tab Nat}
    (h : t.canonical 0 = true) : (changeEmergencies rows f gs t).canonical 0 = true := by
  induction gs generalizing t with
  | nil => exact h
  | cons g gs ih =>
    refine ih ?_
    dsimp only
    split
    · exact h
    · exact hf _ _ h

/-- The row of a talkgroup is the one valid row that carries it (R105). -/
theorem rowOf_eq_some_iff {s : State} (hs : TablesCanonical s) (hc : ConfigurationInRange s) {g : Talkgroup} {k : Nat} :
    rowOf s.reach.rows g = some k ↔ (s.row k).valid = true ∧ (s.row k).talkgroup = g := by
  obtain ⟨-, -, -, -, -, -, -, -, hrows, -⟩ := hs
  obtain ⟨-, -, -, -, -, hdistinct⟩ := hc
  have hsorted := (Tab.canonical_iff.mp hrows).1
  constructor
  · intro h
    obtain ⟨⟨j, r⟩, hfind, rfl⟩ := Option.map_eq_some_iff.mp h
    have hrow : s.row j = r := by rw [State.row, Tab.atD, Tab.at?_of_mem hsorted (List.mem_of_find?_eq_some hfind)]; rfl
    rw [hrow]
    simpa using List.find?_some hfind
  · rintro ⟨hvalid, rfl⟩
    have hmem : (k, s.row k) ∈ s.reach.rows := Tab.mem_of_atD fun h => by rw [State.row, h] at hvalid; cases hvalid
    cases hfind : s.reach.rows.find? fun p => p.2.valid && p.2.talkgroup == (s.row k).talkgroup with
    | none =>
      have hnot := List.find?_eq_none.mp hfind _ hmem
      simp [hvalid] at hnot
    | some q =>
      have hq := List.find?_some hfind
      simp only [Bool.and_eq_true, beq_iff_eq] at hq
      rw [rowOf, hfind, Option.map_some,
        hdistinct q (List.mem_of_find?_eq_some hfind) (k, s.row k) hmem hq.1 hvalid hq.2]

/-! ### What an entry counts as -/

/-- A figure of a slot's content, 0 when it is free. -/
def weight (f : Entry → Nat) (o : Option Entry) : Nat := match o with | some e => f e | none => 0

/-- The table of entries after a slot is written. -/
def entriesAfter (k : Nat) (n : Option Entry) (t : Tab Entry) : Tab Entry := match n with | some e => t.insert k e | none => t.erase k

theorem State.writeEntry_entries (k : Nat) (n : Option Entry) (s : State) :
    (s.writeEntry k n).loc.entries = entriesAfter k n s.loc.entries := rfl

theorem sorted_entriesAfter {k : Nat} {n : Option Entry} {t : Tab Entry} (h : t.sorted = true) :
    (entriesAfter k n t).sorted = true := by
  cases n with
  | none => exact Tab.sorted_erase h
  | some e => exact Tab.sorted_insert h

theorem mem_entriesAfter {k : Nat} {n : Option Entry} {t : Tab Entry} {p : Nat × Entry} (h : p ∈ entriesAfter k n t) :
    n = some p.2 ∧ p.1 = k ∨ p ∈ t := by
  cases n with
  | none => exact .inr (Tab.mem_erase.mp h).1
  | some e =>
    rcases Tab.mem_insert h with rfl | h
    · exact .inl ⟨rfl, rfl⟩
    · exact .inr h

theorem weight_at? (f : Entry → Nat) (t : Tab Entry) (k : Nat) : weight f (t.at? k) = Tab.figure f t k := by
  unfold weight Tab.figure
  cases t.at? k <;> rfl

theorem total_entriesAfter (f : Entry → Nat) {t : Tab Entry} (hs : t.sorted = true) (k : Nat) (n : Option Entry) :
    Tab.total f (entriesAfter k n t) + weight f (t.at? k) = Tab.total f t + weight f n := by
  rw [weight_at?]
  cases n with
  | none => exact Tab.total_erase f hs k
  | some e => exact Tab.total_insert f hs k e

theorem weight_le_total (f : Entry → Nat) {t : Tab Entry} (hs : t.sorted = true) (k : Nat) :
    weight f (t.at? k) ≤ Tab.total f t := by
  have h := Tab.total_erase f hs k
  rw [weight_at?]
  omega

theorem countP_eq_total (p : Entry → Bool) (t : Tab Entry) : (t.countP fun q => p q.2) = Tab.total (fun e => (p e).toNat) t := by
  induction t with
  | nil => rfl
  | cons q t ih => rw [List.countP_cons, Tab.total_cons, ih, Nat.add_comm]; cases p q.2 <;> rfl

theorem total_congr {f g : Entry → Nat} {t : Tab Entry} (h : ∀ p ∈ t, f p.2 = g p.2) : Tab.total f t = Tab.total g t := by
  unfold Tab.total
  rw [List.map_congr_left h]

theorem Entry.sound.sites_nodup {e : Entry} (h : e.sound) : e.sites.Nodup := by
  unfold Entry.sites
  split
  · exact List.nodup_nil
  · exact List.pairwise_singleton ..
  · exact List.pairwise_singleton ..
  next ho _ hho =>
    obtain ⟨-, hsound, -⟩ := h.handover hho
    split
    · exact List.pairwise_singleton ..
    · simpa using hsound.ne_serving.symm
  next => split <;> simp

/-- The sites that carry a sound entry's load are the one it is served by and the one it moves to (R5, table 1-2). -/
theorem Entry.sound.count_sites {e : Entry} (h : e.sound) {x : Nat} (hx : 1 ≤ x) :
    e.sites.count x = (e.servedBy x).toNat + (e.movingTo x).toNat := by
  cases hs : e.state
  case unattached => simp [Entry.sites, Entry.servedBy, Entry.movingTo, hs]
  case attached | shadow =>
    simp only [Entry.sites, Entry.servedBy, Entry.movingTo, hs, List.count_singleton]
    cases e.serving == x <;> simp
  case moving =>
    obtain ⟨ho, hho, hsound, -⟩ := h.moving hs
    simp only [Entry.sites, Entry.servedBy, Entry.movingTo, hs, hho]
    by_cases h0 : e.serving = 0
    · have hne : (0 == x) = false := beq_false_of_ne (by omega)
      rw [if_pos h0, List.count_singleton, h0]
      cases ho.target == x <;> simp [hne]
    · rw [if_neg h0, List.count_cons, List.count_singleton]
      cases ho.target == x <;> cases e.serving == x <;> simp

theorem Entry.sound.not_both {e : Entry} (h : e.sound) {x : Nat} (hserved : e.servedBy x = true) : e.movingTo x = false := by
  refine Bool.eq_false_iff.mpr fun hm => ?_
  simp only [Entry.movingTo, Bool.and_eq_true, decide_eq_true_iff] at hm
  obtain ⟨ho, hho, hsound, -⟩ := h.moving hm.1
  simp only [Entry.servedBy, Bool.and_eq_true, beq_iff_eq] at hserved
  have htarget : ho.target = x := by simpa [hho] using hm.2
  exact hsound.ne_serving (htarget.trans hserved.2.symm)

/-- What an entry adds to the load of a site. -/
def loadWeight (x : Nat) (e : Entry) : Nat := e.sites.count x

/-- What an entry adds to a talkgroup's member count at a site. -/
def memberWeight (g : Talkgroup) (x : Nat) (e : Entry) : Nat := if e.talkgroup = g then e.sites.count x else 0

/-- What an entry adds to a talkgroup's emergency count. -/
def emergencyWeight (g : Talkgroup) (e : Entry) : Nat := (e.talkgroup == g && e.emergency).toNat

theorem loads_eq_total {t : Tab Entry} (h : ∀ p ∈ t, p.2.sound) {x : Nat} (hx : 1 ≤ x) :
    ((t.countP fun p => p.2.servedBy x) + t.countP fun p => p.2.movingTo x) = Tab.total (loadWeight x) t := by
  rw [countP_eq_total fun e => e.servedBy x, countP_eq_total fun e => e.movingTo x]
  induction t with
  | nil => rfl
  | cons p t ih =>
    have hp := (h p List.mem_cons_self).count_sites hx
    have ht := ih fun q hq => h q (List.mem_cons_of_mem p hq)
    simp only [Tab.total_cons, loadWeight] at ht ⊢
    omega

theorem members_eq_total {t : Tab Entry} (h : ∀ p ∈ t, p.2.sound) (g : Talkgroup) {x : Nat} (hx : 1 ≤ x) :
    (t.countP fun p => p.2.talkgroup == g && (p.2.servedBy x || p.2.movingTo x)) = Tab.total (memberWeight g x) t := by
  rw [countP_eq_total fun e => e.talkgroup == g && (e.servedBy x || e.movingTo x)]
  refine total_congr fun p hp => ?_
  have hcount := (h p hp).count_sites hx
  have hnot := (h p hp).not_both (x := x)
  unfold memberWeight
  by_cases hg : p.2.talkgroup = g
  · rw [if_pos hg, hcount, hg, beq_self_eq_true, Bool.true_and]
    cases hs : p.2.servedBy x with
    | false => simp
    | true => rw [hnot hs]; rfl
  · simp [hg]

theorem emergencies_eq_total (t : Tab Entry) (g : Talkgroup) :
    (t.countP fun p => p.2.talkgroup == g && p.2.emergency) = Tab.total (emergencyWeight g) t :=
  countP_eq_total (fun e => e.talkgroup == g && e.emergency) t

/-! ### What a slot's content holds -/

/-- A slot is free or holds a sound entry. -/
def SlotSound (o : Option Entry) : Prop := ∀ e, o = some e → e.sound

theorem SlotSound.sitesOf_nodup {o : Option Entry} (h : SlotSound o) : (sitesOf o).Nodup := by
  cases o with
  | none => exact List.nodup_nil
  | some e => exact (h e rfl).sites_nodup

theorem SlotSound.membershipsOf_nodup {o : Option Entry} (h : SlotSound o) : (membershipsOf o).Nodup := by
  cases o with
  | none => exact List.nodup_nil
  | some e => exact List.Pairwise.map _ (fun x y hne hxy => hne (congrArg Prod.snd hxy)) (h e rfl).sites_nodup

theorem emergencyOf_nodup (o : Option Entry) : (emergencyOf o).Nodup := by
  cases o with
  | none => exact List.nodup_nil
  | some e => unfold emergencyOf; dsimp only; split <;> simp

theorem count_sitesOf (o : Option Entry) (x : Nat) : (sitesOf o).count x = weight (loadWeight x) o := by cases o <;> rfl

theorem count_map_pair {α β : Type} [BEq α] [LawfulBEq α] [BEq β] (a : α) (l : List β) (b : β) :
    (l.map (Prod.mk a)).count (a, b) = l.count b := by
  induction l with
  | nil => rfl
  | cons c l ih =>
    have hpair : ((a, c) == (a, b)) = (c == b) := by
      change (a == a && c == b) = (c == b)
      rw [beq_self_eq_true, Bool.true_and]
    rw [List.map_cons, List.count_cons, List.count_cons, ih, hpair]

theorem count_membershipsOf (o : Option Entry) (g : Talkgroup) (x : Nat) :
    (membershipsOf o).count (g, x) = weight (memberWeight g x) o := by
  cases o with
  | none => rfl
  | some e =>
    unfold membershipsOf weight memberWeight
    dsimp only
    split
    next hg =>
      rw [hg]
      exact count_map_pair g e.sites x
    next hg => exact List.count_eq_zero_of_not_mem fun hmem => by simp at hmem; exact hg hmem.2

theorem count_emergencyOf (o : Option Entry) (g : Talkgroup) : (emergencyOf o).count g = weight (emergencyWeight g) o := by
  cases o with
  | none => rfl
  | some e =>
    unfold emergencyOf weight emergencyWeight
    dsimp only
    cases e.emergency <;> simp [List.count_singleton, Bool.toNat]

/-! ### The laws of the counts as totals -/

theorem LoadLaw_iff {s : State} (he : EntriesSound s) :
    LoadLaw s ↔ ∀ x, 1 ≤ x → x ≤ 40 → s.load x = Tab.total (loadWeight x) s.loc.entries := by
  refine forall_congr' fun x => forall_congr' fun hx => ?_
  rw [loads_eq_total he hx]

theorem CountLaw_iff {s : State} (he : EntriesSound s) :
    CountLaw s ↔ ∀ k,
      (∀ x, 1 ≤ x → x ≤ 40 → s.memberCount k x =
        if (s.row k).valid then Tab.total (memberWeight (s.row k).talkgroup x) s.loc.entries else 0) ∧
      s.emergencyCount k = if (s.row k).valid then Tab.total (emergencyWeight (s.row k).talkgroup) s.loc.entries else 0 := by
  refine forall_congr' fun k => and_congr (forall_congr' fun x => forall_congr' fun hx => ?_) ?_
  · rw [members_eq_total he _ hx]
  · rw [emergencies_eq_total]

/-! ### What a write keeps -/

/-- What may be written to a slot: nothing, or a sound entry whose radio has no other entry, in a slot the table has. -/
def WriteSound (s : State) (k : Nat) (n : Option Entry) : Prop :=
  ∀ e, n = some e → k < 2048 ∧ e.sound ∧ ∀ p ∈ s.loc.entries, p.1 ≠ k → p.2.radio ≠ e.radio

theorem EntriesSound.slotSound {s : State} (h : EntriesSound s) (k : Nat) : SlotSound (s.entry k) :=
  fun _ he => h _ (Tab.mem_of_at? he)

theorem writeEntry_entriesSound {s : State} {k : Nat} {n : Option Entry} (h : EntriesSound s) (hn : WriteSound s k n) :
    EntriesSound (s.writeEntry k n) := by
  intro p hp
  rcases mem_entriesAfter hp with ⟨he, -⟩ | hp
  · exact (hn p.2 he).2.1
  · exact h p hp

/-- The records of a table in rising order have different figures if no two numbers have the same one. -/
theorem nodup_map_iff {α β : Type} (f : α → β) {t : Tab α} (hs : t.sorted = true) :
    (t.map fun p => f p.2).Nodup ↔ ∀ p ∈ t, ∀ q ∈ t, f p.2 = f q.2 → p.1 = q.1 := by
  induction t with
  | nil => simp
  | cons p t ih =>
    obtain ⟨k, e⟩ := p
    rw [Tab.sorted_cons] at hs
    rw [List.map_cons, List.nodup_cons, ih hs.2]
    constructor
    · rintro ⟨hnot, hrest⟩ p hp q hq heq
      have hne : ∀ q ∈ t, f q.2 ≠ f e := fun q hq h => hnot (List.mem_map.mpr ⟨q, hq, h⟩)
      rcases List.mem_cons.mp hp with rfl | hp <;> rcases List.mem_cons.mp hq with rfl | hq
      · rfl
      · exact absurd heq.symm (hne q hq)
      · exact absurd heq (hne p hp)
      · exact hrest p hp q hq heq
    · intro h
      refine ⟨fun hmem => ?_, fun p hp q hq => h p (List.mem_cons_of_mem _ hp) q (List.mem_cons_of_mem _ hq)⟩
      obtain ⟨q, hq, heq⟩ := List.mem_map.mp hmem
      exact absurd (h q (List.mem_cons_of_mem _ hq) (k, e) List.mem_cons_self heq) (Nat.ne_of_gt (hs.1 q hq))

/-- No two slots hold one radio, among slots in rising order. -/
theorem radios_nodup_iff {t : Tab Entry} (hs : t.sorted = true) :
    (t.map (·.2.radio)).Nodup ↔ ∀ p ∈ t, ∀ q ∈ t, p.2.radio = q.2.radio → p.1 = q.1 :=
  nodup_map_iff Entry.radio hs

theorem writeEntry_entryTableSound {s : State} {k : Nat} {n : Option Entry} (hs : s.loc.entries.sorted = true)
    (h : EntryTableSound s) (hn : WriteSound s k n) : EntryTableSound (s.writeEntry k n) := by
  obtain ⟨hslots, hradios, hvisits⟩ := h
  rw [radios_nodup_iff hs] at hradios
  refine ⟨fun p hp => ?_, (radios_nodup_iff (sorted_entriesAfter hs)).mpr fun p hp q hq heq => ?_, fun j hj => ?_⟩
  · rcases mem_entriesAfter hp with ⟨he, hk⟩ | hp
    · exact hk ▸ (hn p.2 he).1
    · exact hslots p hp
  · refine Classical.byContradiction fun hne => ?_
    rcases mem_entriesAfter hp with ⟨hep, hkp⟩ | hp' <;> rcases mem_entriesAfter hq with ⟨heq', hkq⟩ | hq'
    · exact hne (hkp.trans hkq.symm)
    · exact (hn p.2 hep).2.2 q hq' (fun h => hne (hkp.trans h.symm)) heq.symm
    · exact (hn q.2 heq').2.2 p hp' (fun h => hne (h.trans hkq.symm)) heq
    · exact hne (hradios p hp' q hq' heq)
  · by_cases hjk : j = k
    · subst hjk
      rw [State.entry_writeEntry_self]
      cases n with
      | some e => rfl
      | none => simp [State.writeEntry] at hj
    · rw [State.entry_writeEntry_ne hjk]
      refine hvisits j ?_
      cases n with
      | some e => exact hj
      | none => exact (List.mem_filter.mp hj).1

theorem writeEntry_tablesCanonical {s : State} (k : Nat) (n : Option Entry) (h : TablesCanonical s) :
    TablesCanonical (s.writeEntry k n) := by
  obtain ⟨h1, h2, hentries, hloads, hmembers, hrows, hemergencies, hrest⟩ := h
  have hm : MembersCanonical (s.writeEntry k n).loc.members :=
    (MembersCanonical.changeMembers (f := lowerAt) (fun _ _ => canonical_lowerAt) s.reach.rows _ ⟨hmembers, hrows⟩).changeMembers
      (f := raiseAt) (fun _ _ => canonical_raiseAt) s.reach.rows _
  exact ⟨h1, h2, sorted_entriesAfter hentries, canonical_raiseAt (canonical_lowerAt hloads), hm.1, hm.2,
    canonical_changeEmergencies (f := raiseAt) (fun _ _ => canonical_raiseAt) _ _
      (canonical_changeEmergencies (f := lowerAt) (fun _ _ => canonical_lowerAt) _ _ hemergencies), hrest⟩

theorem writeEntry_loadLaw {s : State} {k : Nat} {n : Option Entry} (hs : s.loc.entries.sorted = true) (he : EntriesSound s)
    (hn : WriteSound s k n) (h : LoadLaw s) : LoadLaw (s.writeEntry k n) := by
  rw [LoadLaw_iff (writeEntry_entriesSound he hn)]
  rw [LoadLaw_iff he] at h
  intro x hx hx40
  have hload : (s.writeEntry k n).load x =
      s.load x - (gained (sitesOf n) (sitesOf (s.entry k))).count x + (gained (sitesOf (s.entry k)) (sitesOf n)).count x := by
    change (raiseAt _ (lowerAt _ _)).atD x 0 = _
    rw [atD_raiseAt, atD_lowerAt]
    rfl
  have hold := (he.slotSound k).sitesOf_nodup
  have hnew : (sitesOf n).Nodup := SlotSound.sitesOf_nodup fun e he => (hn e he).2.1
  have hle : (sitesOf (s.entry k)).count x ≤ s.load x := by
    rw [count_sitesOf, h x hx hx40]
    exact weight_le_total (loadWeight x) hs k
  have hcounts := raise_lower_count hold hnew x hle
  have htotal := total_entriesAfter (loadWeight x) hs k n
  rw [← hload, count_sitesOf, count_sitesOf, h x hx hx40] at hcounts
  change _ + weight _ (s.entry k) = _ at htotal
  rw [State.writeEntry_entries]
  omega

theorem countP_inRow {rows : Tab GroupRow} {k x : Nat} {g : Talkgroup} (h : ∀ g', rowOf rows g' = some k ↔ g' = g)
    (ms : List (Talkgroup × Nat)) : ms.countP (inRow rows k x) = ms.count (g, x) := by
  refine List.countP_congr fun p _ => ?_
  obtain ⟨g', y⟩ := p
  simp [inRow, h]

theorem countP_inRow_none {rows : Tab GroupRow} {k x : Nat} (h : ∀ g, rowOf rows g ≠ some k) (ms : List (Talkgroup × Nat)) :
    ms.countP (inRow rows k x) = 0 := by
  rw [List.countP_eq_zero]
  intro p _
  simp [inRow, h]

theorem State.writeEntry_memberCount (k j x : Nat) (n : Option Entry) (s : State) :
    (s.writeEntry k n).memberCount j x =
      s.memberCount j x - (gained (membershipsOf n) (membershipsOf (s.entry k))).countP (inRow s.reach.rows j x) +
        (gained (membershipsOf (s.entry k)) (membershipsOf n)).countP (inRow s.reach.rows j x) := by
  change ((changeMembers _ raiseAt _ (changeMembers _ lowerAt _ _)).atD j []).atD x 0 = _
  rw [atD_changeMembers_raiseAt, atD_changeMembers_lowerAt]
  rfl

theorem State.writeEntry_emergencyCount (k j : Nat) (n : Option Entry) (s : State) :
    (s.writeEntry k n).emergencyCount j =
      s.emergencyCount j -
          (gained (emergencyOf n) (emergencyOf (s.entry k))).countP (fun g => decide (rowOf s.reach.rows g = some j)) +
        (gained (emergencyOf (s.entry k)) (emergencyOf n)).countP (fun g => decide (rowOf s.reach.rows g = some j)) := by
  change (changeEmergencies _ raiseAt _ (changeEmergencies _ lowerAt _ _)).atD j 0 = _
  rw [atD_changeEmergencies_raiseAt, atD_changeEmergencies_lowerAt]
  rfl

theorem writeEntry_countLaw {s : State} {k : Nat} {n : Option Entry} (hs : TablesCanonical s) (hc : ConfigurationInRange s)
    (he : EntriesSound s) (hn : WriteSound s k n) (h : CountLaw s) : CountLaw (s.writeEntry k n) := by
  rw [CountLaw_iff (writeEntry_entriesSound he hn)]
  rw [CountLaw_iff he] at h
  have hsorted : s.loc.entries.sorted = true := hs.2.2.1
  have hold := he.slotSound k
  have hnew : SlotSound n := fun e he => (hn e he).2.1
  intro j
  obtain ⟨hmembers, hemergencies⟩ := h j
  change (∀ x, 1 ≤ x → x ≤ 40 → _ = if (s.row j).valid = true then _ else 0) ∧ _ = if (s.row j).valid = true then _ else 0
  by_cases hvalid : (s.row j).valid = true
  · have hrow : ∀ g, rowOf s.reach.rows g = some j ↔ g = (s.row j).talkgroup := fun g => by
      rw [rowOf_eq_some_iff hs hc]
      exact ⟨fun h => h.2.symm, fun h => ⟨hvalid, h.symm⟩⟩
    rw [if_pos hvalid] at hemergencies ⊢
    refine ⟨fun x hx hx40 => ?_, ?_⟩
    · have hcount := hmembers x hx hx40
      rw [if_pos hvalid] at hcount ⊢
      rw [State.writeEntry_memberCount, countP_inRow hrow, countP_inRow hrow]
      have hle : (membershipsOf (s.entry k)).count ((s.row j).talkgroup, x) ≤ s.memberCount j x := by
        rw [count_membershipsOf, hcount]
        exact weight_le_total _ hsorted k
      have hcounts := raise_lower_count hold.membershipsOf_nodup hnew.membershipsOf_nodup _ hle
      have htotal := total_entriesAfter (memberWeight (s.row j).talkgroup x) hsorted k n
      rw [count_membershipsOf (s.entry k), count_membershipsOf n] at hcounts
      change _ + weight _ (s.entry k) = _ at htotal
      change _ = Tab.total (memberWeight (s.row j).talkgroup x) (entriesAfter k n s.loc.entries)
      omega
    · have hcountP : ∀ gs : List Talkgroup,
          (gs.countP fun g => decide (rowOf s.reach.rows g = some j)) = gs.count (s.row j).talkgroup := fun gs =>
        List.countP_congr fun g _ => by simp [hrow]
      rw [State.writeEntry_emergencyCount, hcountP, hcountP]
      have hle : (emergencyOf (s.entry k)).count (s.row j).talkgroup ≤ s.emergencyCount j := by
        rw [count_emergencyOf, hemergencies]
        exact weight_le_total _ hsorted k
      have hcounts := raise_lower_count (emergencyOf_nodup (s.entry k)) (emergencyOf_nodup n) _ hle
      have htotal := total_entriesAfter (emergencyWeight (s.row j).talkgroup) hsorted k n
      rw [count_emergencyOf (s.entry k), count_emergencyOf n] at hcounts
      change _ + weight _ (s.entry k) = _ at htotal
      change _ = Tab.total (emergencyWeight (s.row j).talkgroup) (entriesAfter k n s.loc.entries)
      omega
  · have hrow : ∀ g, rowOf s.reach.rows g ≠ some j := fun g h => hvalid ((rowOf_eq_some_iff hs hc).mp h).1
    rw [if_neg hvalid] at hemergencies ⊢
    refine ⟨fun x hx hx40 => ?_, ?_⟩
    · have hcount := hmembers x hx hx40
      rw [if_neg hvalid] at hcount ⊢
      rw [State.writeEntry_memberCount, countP_inRow_none hrow, countP_inRow_none hrow, hcount]
    · rw [State.writeEntry_emergencyCount, hemergencies]
      simp [hrow]

/-- Writing a slot keeps every law, if what is written may stand there. -/
theorem State.writeEntry_keeps {A : Prop} {s : State} {k : Nat} {n : Option Entry}
    (h : A → TablesCanonical s → ConfigurationInRange s → EntryLaws s → WriteSound s k n) : Keeps A s (s.writeEntry k n) where
  pending := rfl
  now := rfl
  tables := writeEntry_tablesCanonical k n
  config _ hc := hc
  entries ha hs hc he :=
    have hn := h ha hs hc he
    ⟨writeEntry_entriesSound he.1 hn, writeEntry_entryTableSound hs.2.2.1 he.2.1 hn, he.2.2⟩
  counts ha hs hc he hl :=
    have hn := h ha hs hc he
    ⟨writeEntry_loadLaw hs.2.2.1 he.1 hn hl.1, writeEntry_countLaw hs hc he.1 hn hl.2⟩
  queues _ _ hq := hq
  control _ _ hq := by
    obtain ⟨⟨hrun, hvisits⟩, hrest⟩ := hq
    refine ⟨⟨hrun, fun hload => ?_⟩, hrest⟩
    change (if n.isSome = true then s.loc.visits else s.loc.visits.filter (· != k)) = []
    rw [hvisits hload]
    split <;> rfl
  locked _ hl hb := ⟨⟨hl, fun _ => rfl, rfl, rfl, rfl, fun _ _ => rfl⟩, hb⟩

/-- What may be written over an entry: a sound entry of the same radio. -/
theorem WriteSound.of_entry {s : State} {k : Nat} {e e' : Entry} (hs : s.loc.entries.sorted = true) (ht : EntryTableSound s)
    (hk : s.entry k = some e) (hradio : e'.radio = e.radio) (hsound : e'.sound) : WriteSound s k (some e') := by
  rintro f hf
  obtain rfl : e' = f := Option.some.inj hf
  have hmem : (k, e) ∈ s.loc.entries := Tab.mem_of_at? hk
  refine ⟨ht.1 _ hmem, hsound, fun p hp hne heq => hne ?_⟩
  exact (radios_nodup_iff hs).mp ht.2.1 p hp (k, e) hmem (heq.trans hradio)

/-- Changing an entry keeps every law, if a sound entry is changed to a sound one of the same radio. -/
theorem State.overwrite_keeps {A : Prop} {s : State} {k : Nat} {e e' : Entry} (hk : s.entry k = some e) (hradio : e'.radio = e.radio)
    (h : A → ConfigurationInRange s → e.sound → e'.sound) : Keeps A s (s.writeEntry k (some e')) :=
  State.writeEntry_keeps fun ha hs hc he =>
    .of_entry hs.2.2.1 he.2.1 hk hradio (h ha hc (he.1.slotSound k e hk))

/-- Freeing a slot keeps every law. -/
theorem State.freeEntry_keeps {A : Prop} (k : Nat) (s : State) : Keeps A s (s.writeEntry k none) :=
  State.writeEntry_keeps fun _ _ _ _ _ h => nomatch h

end Sys2Proof.Machine

/-! The location engine's events keep every law: each change of an entry makes a sound entry of a sound one. -/

namespace Sys2Proof.Machine

variable {A : Prop} {s t u : State}

/-! ### Sites and qualities -/

/-- A site that is not OFF is one the part has. -/
theorem ConfigurationInRange.validSite_of_ne_off (h : ConfigurationInRange s) {x : Nat} (hne : (s.site x).state ≠ .off) :
    validSite x = true :=
  (h.1 _ (Tab.mem_of_atD (k := x) fun heq => hne (by rw [State.site, heq]; rfl))).1

theorem State.state_of_siteUp {x : Nat} (h : s.siteUp x = true) : (s.site x).state = .up := of_decide_eq_true h

theorem State.ne_off_of_siteUp {x : Nat} (h : s.siteUp x = true) : (s.site x).state ≠ .off := by
  rw [State.state_of_siteUp h]
  decide

theorem adjust_le (offset : Int) (q : Nat) : adjust offset q ≤ 63 := by
  unfold adjust
  omega

theorem State.adjusted_le {site quality q : Nat} (h : s.adjusted site quality = some q) : q ≤ 63 := by
  obtain ⟨r, -, rfl⟩ := Option.map_eq_some_iff.mp h
  exact adjust_le ..

theorem ConfigurationInRange.policy_inRange (h : ConfigurationInRange s) (e : Entry) : (s.policy e).inRange := h.2.1 e.cls

/-- What leaves the location engine alone leaves its entries alone. -/
theorem State.entry_congr (h : t.loc = s.loc) (k : Nat) : t.entry k = s.entry k := by rw [State.entry, h]; rfl

theorem State.siteUp_congr (h : t.monitor = s.monitor) (x : Nat) : t.siteUp x = s.siteUp x := by
  rw [State.siteUp, State.site, h]
  rfl

theorem State.site_congr (h : t.monitor = s.monitor) (x : Nat) : t.site x = s.site x := by
  rw [State.site, h]
  rfl

/-! ### Changes of one entry -/

theorem State.setEmergency_keeps (k : Nat) (s : State) : Keeps A s (s.setEmergency k) := by
  unfold State.setEmergency
  split
  · exact .refl s
  next e hk =>
    split
    · exact .refl s
    · exact .after (State.notify_keeps ..) (State.overwrite_keeps hk rfl fun _ _ h => h)

/-- An entry whose candidate list was updated by a report stays sound (R25 step 3). -/
theorem Entry.sound.updateCands {e : Entry} (h : e.sound) {p : ClassPolicy} (hp : p.inRange) {now : Epoch} {force : Bool} {site : Nat}
    {a : Option Nat} (ha : ∀ q, a = some q → q ≤ 63) (hsite : validSite site = true) :
    Entry.sound { e with cands := Machine.updateCands p now e.uses force site a e.cands } :=
  h.of_stay { h.body with cands := updateCands_sound hp ha hsite h.body.cands } rfl rfl id
    (fun ho hho => ⟨ho, hho, rfl, (h.handover hho).2.1.retries, (h.handover hho).2.1.age⟩) fun _ => hears_updateCands

theorem State.scoreEntry_keeps {k site : Nat} {a : Option Nat} {force : Bool} (ha : ∀ q, a = some q → q ≤ 63)
    (hsite : (s.site site).state ≠ .off) : Keeps A s (s.scoreEntry k site a force) := by
  unfold State.scoreEntry State.modifyEntry
  split
  next e hk =>
    exact State.overwrite_keeps hk rfl fun _ hc h => h.updateCands (hc.policy_inRange e) ha (hc.validSite_of_ne_off hsite)
  next => exact .refl s

theorem State.recover_keeps (k site : Nat) (decoded : Bool) (s : State) : Keeps A s (s.recover k site decoded) := by
  unfold State.recover
  split
  · exact .refl s
  next e hk =>
    split
    next h =>
      refine .after (State.notify_keeps ..) (State.overwrite_keeps hk rfl fun _ _ he => ?_)
      obtain ⟨hserving, hhandover⟩ := he.settled (.inr h.1)
      exact Entry.BodySound.settled (e := { e with state := .attached }) { he.body with } (.inl rfl) hserving
        (he.serving (ne_zero_of_validSite hserving)).2 hhandover
    next => exact .refl s

/-! ### Handovers -/

/-- The entry MOVING to a site (R50). -/
def movedTo (e : Entry) (x : Nat) (origin : Origin) : Entry :=
  { e with
    number := e.number + 1
    handover := some { target := x, origin := origin, retries := 0, age := 0, accepted := false }
    state := .moving }

/-- Starting a handover offers its directives, and if the SERVE was admitted writes the entry. -/
theorem State.startHandover_form (k : Nat) (e : Entry) (x : Nat) (origin : Origin) (s : State) :
    ∃ u : State, (∀ A, Keeps A s u) ∧ u.loc = s.loc ∧ u.monitor = s.monitor ∧
      (s.startHandover k e x origin = (u, false) ∨
        s.startHandover k e x origin = (u.writeEntry k (some (movedTo e x origin)), true)) := by
  unfold State.startHandover
  dsimp only
  generalize hf : ControlFrame.directive _ = f
  have hoffer : ∀ A, Keeps A s (s.offerControl x f).1 := fun _ => s.offerControl_keeps x f
  have hloc := State.offerControl_loc x f s
  have hmonitor := State.offerControl_monitor x f s
  generalize s.offerControl x f = q at hoffer hloc hmonitor
  obtain ⟨u, v⟩ := q
  cases v with
  | admitted =>
    exact ⟨_, fun A => (hoffer A).trans (State.issueDirective_keeps ..), (State.issueDirective_loc ..).trans hloc,
      (State.issueDirective_monitor ..).trans hmonitor, .inr rfl⟩
  | noSite => exact ⟨u, hoffer, hloc, hmonitor, .inl rfl⟩
  | noRoom => exact ⟨u, hoffer, hloc, hmonitor, .inl rfl⟩

/-- A settled entry may move to a site it hears other than its own (R33, R50). -/
theorem Entry.sound.movedTo {e : Entry} (h : e.sound) (hs : e.state = .attached ∨ e.state = .shadow) {x : Nat}
    (hx : validSite x = true) (hne : x ≠ e.serving) (origin : Origin) {cs : List Candidate} (hcs : CandsSound cs)
    (hserving : Hears cs e.serving) (hheard : Hears cs x) : Entry.sound { Machine.movedTo e x origin with cands := cs } :=
  Entry.BodySound.moving (e := { Machine.movedTo e x origin with cands := cs }) { h.body with cands := hcs } rfl
    (fun _ => ⟨(h.settled hs).1, hserving⟩) rfl
    ⟨hx, hne, Nat.zero_le _, Nat.zero_le _⟩ hheard

/-- The best eligible target is an eligible candidate. -/
theorem State.bestTarget_mem {e : Entry} {b : Candidate} (h : s.bestTarget e = some b) : b ∈ e.cands ∧ s.eligible e b = true := by
  have hmem : b ∈ e.cands.filter fun c => s.eligible e c := by
    refine (foldl_choice_mem (fun o c => ?_) h).resolve_right (by simp)
    cases o with
    | none => exact .inl rfl
    | some d => dsimp only; split <;> simp
  simpa using hmem

theorem State.roamDecision_keeps (k : Nat) (s : State) : Keeps A s (s.roamDecision k) := by
  unfold State.roamDecision
  split
  · exact .refl s
  next e hk =>
    split
    · exact .refl s
    next b hb =>
      split
      next htakes =>
        obtain ⟨u, hkeeps, hloc, -, hform⟩ := s.startHandover_form k e b.site .directed
        rcases hform with hform | hform
        · rw [hform]; exact hkeeps A
        · rw [hform]
          refine (hkeeps A).trans (State.overwrite_keeps ((State.entry_congr hloc k).trans hk) rfl fun _ _ he => ?_)
          obtain ⟨hmem, heligible⟩ := State.bestTarget_mem hb
          have hstate : e.state = .attached ∨ e.state = .shadow := by
            cases hs : e.state <;> simp [State.takesTarget, hs] at htakes ⊢
          have hne : b.site ≠ e.serving := by
            simp only [State.eligible, Bool.and_eq_true, bne_iff_ne] at heligible
            exact heligible.1.1.1.1
          exact he.movedTo hstate (he.body.cands.each b hmem).1 hne .directed he.body.cands
            (he.serving (ne_zero_of_validSite (he.settled hstate).1)).2 ⟨b, hmem, rfl⟩
      next => exact .refl s

/-- An entry whose handover was abandoned is sound (R55). -/
theorem Entry.sound.abandoned {e : Entry} (h : e.sound) {ho : Handover} (hho : e.handover = some ho) (s : State) :
    (abandoned s e ho).sound := by
  obtain ⟨-, hsound, -⟩ := h.handover hho
  have hbody : (Machine.abandoned s e ho).BodySound :=
    { h.body with
      shadow := by
        change (if _ then 0 else e.shadow) ≤ 255
        split
        · exact Nat.zero_le _
        · exact h.body.shadow
      failed := by
        rintro f hf
        obtain rfl := Option.some.inj hf
        exact ⟨hsound.target, (by decide : 1 ≤ Config.failedEpochs), Nat.le_refl Config.failedEpochs⟩ }
  by_cases h0 : e.serving = 0
  · exact hbody.unattached ((abandoned_state_eq_unattached_iff s e ho).mpr h0) h0 rfl
  · have hserving := h.serving h0
    refine hbody.settled ?_ hserving.1 hserving.2 rfl
    change abandonState s e = _ ∨ abandonState s e = _
    unfold abandonState
    rw [if_neg h0]
    split <;> simp

theorem State.notifyShadow_keeps (e : Entry) (s : State) : Keeps A s (s.notifyShadow e) := State.notify_keeps ..

theorem State.abandon_keeps {k : Nat} {e : Entry} {ho : Handover} (hk : s.entry k = some e) (hho : e.handover = some ho) :
    Keeps A s (s.abandon k e ho) := by
  have hk' : (s.cancel e ho).entry k = some e := (State.entry_congr (State.cancel_loc e ho s) k).trans hk
  have hmain := (State.cancel_keeps (A := A) e ho s).trans
    ((State.overwrite_keeps (e' := abandoned s e ho) hk' rfl fun _ _ he => he.abandoned hho s).trans
      (State.notify_keeps .roamFailed e.radio e.serving ho.target e.talkgroup ho.origin.cause _))
  change Keeps A s (if abandonState s e = .shadow then _ else _)
  split
  · exact hmain.trans (State.notifyShadow_keeps e _)
  · exact hmain

theorem State.enterShadow_keeps {k : Nat} {e : Entry} (hk : s.entry k = some e) (hs : e.state = .attached) :
    Keeps A s (s.enterShadow k e) := by
  unfold State.enterShadow
  refine .after (State.notifyShadow_keeps ..) (State.overwrite_keeps hk rfl fun _ _ he => ?_)
  obtain ⟨hserving, hhandover⟩ := he.settled (.inl hs)
  exact Entry.BodySound.settled (e := { e with state := .shadow, shadow := 0 }) { he.body with shadow := Nat.zero_le _ } (.inr rfl)
    hserving (he.serving (ne_zero_of_validSite hserving)).2 hhandover

/-! ### New entries -/

theorem freeSlot_some {t : Tab Entry} {n a k : Nat} (h : freeSlot t n a = some k) : k < a + n ∧ t.at? k = none := by
  induction n generalizing a with
  | zero => cases h
  | succ n ih =>
    rw [freeSlot] at h
    split at h
    next hfree =>
      cases h
      exact ⟨by omega, by simpa using hfree⟩
    next =>
      obtain ⟨hlt, hnone⟩ := ih h
      exact ⟨by omega, hnone⟩

/-- Eviction frees an occupied slot. -/
theorem evictee_mem {now : Epoch} {t : Tab Entry} {k : Nat} (h : evictee now t = some k) : ∃ e, (k, e) ∈ t := by
  obtain ⟨⟨k', a⟩, hfold, rfl⟩ := Option.map_eq_some_iff.mp h
  suffices hgen : ∀ (l : Tab Entry) (v : Option (Nat × Nat)), (∀ p ∈ l, p ∈ t) → (∀ p, v = some p → ∃ e, (p.1, e) ∈ t) →
      ∀ q, l.foldl
        (fun (v : Option (Nat × Nat)) p =>
          let a := newestHeardAge now p.2
          match v with
          | none => some (p.1, a)
          | some (k, b) => if b < a || (decide (b = a) && decide (p.1 < k)) then some (p.1, a) else some (k, b)) v = some q →
        ∃ e, (q.1, e) ∈ t from
    hgen _ none (fun p hp => (List.mem_filter.mp hp).1) (by simp) _ hfold
  intro l
  induction l with
  | nil => exact fun v _ hv q hq => hv q hq
  | cons p l ih =>
    intro v hl hv q hq
    refine ih _ (fun r hr => hl r (List.mem_cons_of_mem p hr)) (fun r hr => ?_) q hq
    have hp : ∃ e, (p.1, e) ∈ t := ⟨p.2, hl p List.mem_cons_self⟩
    cases v with
    | none => cases hr; exact hp
    | some w =>
      dsimp only at hr
      split at hr <;> cases hr
      · exact hp
      · exact hv w rfl

/-- The slot obtained for a new entry is free, and what was done to obtain it keeps every law and adds no entry (R10). -/
theorem State.obtainSlot_keeps {k : Nat} (h : s.obtainSlot = some (k, t)) :
    Keeps A s t ∧ (EntryTableSound s → k < 2048) ∧ t.entry k = none ∧ (∀ p ∈ t.loc.entries, p ∈ s.loc.entries) ∧
      t.monitor = s.monitor ∧ t.loc.epoch = s.loc.epoch ∧ t.loc.ranges = s.loc.ranges := by
  unfold State.obtainSlot at h
  split at h
  next hfree =>
    cases h
    exact ⟨.refl s, fun _ => by simpa using (freeSlot_some hfree).1, (freeSlot_some hfree).2, fun _ hp => hp, rfl, rfl, rfl⟩
  next =>
    split at h
    next hevict =>
      cases h
      refine ⟨(State.freeEntry_keeps k s).trans (State.count_keeps ..), fun hs => ?_, State.entry_writeEntry_self k none s,
        fun p hp => (Tab.mem_erase.mp hp).1, rfl, rfl, rfl⟩
      obtain ⟨e, he⟩ := evictee_mem hevict
      exact hs.1 _ he
    next => cases h

/-- A radio that is not found has no entry. -/
theorem State.radio_ne_of_lookup_none {radio : RadioId} (h : s.lookup radio = none) : ∀ p ∈ s.loc.entries, p.2.radio ≠ radio := by
  intro p hp
  simpa using List.find?_eq_none.mp h p hp

/-- A new entry is sound (R8). -/
theorem newEntry_sound {ranges : Tab ClassRange} {now : Epoch} {radio : RadioId} {site a : Nat} (hradio : validRadio radio = true)
    (hsite : validSite site = true) (ha : a ≤ 63) : (newEntry ranges now radio site a).sound := by
  refine Entry.BodySound.unattached (e := newEntry ranges now radio site a)
    ⟨hradio, by simp [newEntry], by simp [newEntry], by simp [newEntry], ⟨by simp [newEntry], by simp [newEntry], ?_⟩,
      by simp [newEntry]⟩ rfl rfl rfl
  intro c hc
  obtain rfl : c = newCandidate now site a := by simpa [newEntry] using hc
  exact ⟨hsite, by change 16 * a ≤ 1008; omega⟩

theorem State.createEntry_keeps {radio : RadioId} {site a k : Nat} (h : s.createEntry radio site a = some (k, t))
    (hradio : A → validRadio radio = true) (hnone : s.lookup radio = none) (hsite : (s.site site).state ≠ .off) (ha : a ≤ 63) :
    Keeps A s t ∧ t.entry k = some (newEntry s.loc.ranges s.loc.epoch radio site a) ∧ t.monitor = s.monitor := by
  unfold State.createEntry at h
  split at h
  next j u hslot =>
    simp only [Option.some.injEq, Prod.mk.injEq] at h
    obtain ⟨rfl, rfl⟩ := h
    obtain ⟨hkeeps, hlt, -, hsub, hmonitor, hepoch, hranges⟩ := State.obtainSlot_keeps (A := A) hslot
    refine ⟨?_, State.entry_writeEntry_self .., hmonitor⟩
    have hwrite : Keeps (A ∧ j < 2048) u (u.writeEntry j (some (newEntry s.loc.ranges s.loc.epoch radio site a))) := by
      refine State.writeEntry_keeps fun ha' _ hc _ e he => ?_
      obtain rfl := Option.some.inj he
      have hvalid : validSite site = true := hc.validSite_of_ne_off (by rwa [State.site_congr hmonitor])
      exact ⟨ha'.2, newEntry_sound (hradio ha'.1) hvalid ha, fun p hp _ => State.radio_ne_of_lookup_none hnone p (hsub p hp)⟩
    exact ((State.obtainSlot_keeps hslot).1.trans hwrite).discharge fun ha' he => ⟨ha', hlt he.2.1⟩
  next => cases h

/-! ### Reports -/

theorem State.setEmergency_monitor (k : Nat) (s : State) : (s.setEmergency k).monitor = s.monitor := by
  unfold State.setEmergency
  split
  · rfl
  · split
    · rfl
    · simp

/-- A report applied keeps every law (R7, R8, R25). -/
theorem State.applyReport_keeps {r : Report} (hradio : A → validRadio r.radio = true) (hsite : (s.site r.site).state ≠ .off) :
    Keeps A s (s.applyReport r) := by
  unfold State.applyReport
  split
  next k e hfound =>
    dsimp only
    generalize hs1 : (if r.emergency = true then s.setEmergency k else s) = s1
    have hkeeps : Keeps A s s1 ∧ s1.monitor = s.monitor := by
      rw [← hs1]
      split
      · exact ⟨s.setEmergency_keeps k, s.setEmergency_monitor k⟩
      · exact ⟨.refl s, rfl⟩
    have hsite1 : (s1.site r.site).state ≠ .off := by rwa [State.site_congr hkeeps.2]
    exact .after (State.roamDecision_keeps ..) (.after (State.recover_keeps ..)
      (.after (State.scoreEntry_keeps (fun _ => State.adjusted_le) hsite1) hkeeps.1))
  next hnone =>
    split
    · exact .refl s
    next a ha =>
      split
      next k u hcreated =>
        have hu := (State.createEntry_keeps hcreated hradio hnone hsite (State.adjusted_le ha)).1
        split
        · exact hu.trans (State.setEmergency_keeps ..)
        · exact hu
      next => exact s.count_keeps _

/-- What the location engine takes from a site keeps every law if what it does with it, the site not OFF, does. -/
theorem State.intake_keeps {site : Nat} {f : State → State} (h : (s.site site).state ≠ .off → Keeps A s (f s)) :
    Keeps A s (s.intake site f) := by
  unfold State.intake
  split
  · exact .refl s
  · split
    · exact s.count_keeps _
    next hne => exact h hne

/-- A command answers a next state and keeps every law. -/
def Advances (s : State) (o : Host.Outcome State Fault Refusal) : Prop := ∃ t, o = .next t ∧ Keeps True s t

theorem Keeps.advances (h : Keeps True s t) : Advances s (.next t) := ⟨t, rfl, h⟩

/-- A command that may change nothing. -/
theorem advances_self (s : State) : Advances s (.next s) := (Keeps.refl s).advances

/-- What is taken from an inbox of sound matter is sound, and the rest is. -/
theorem Keeps.taking (hgoverned : t.governed = s.governed) (hcounters : t.mgmt.counters = s.mgmt.counters)
    (hinboxes : InboxesSound s → InboxesSound t) (hA : InboxesSound s → A) (h : Keeps A t u) : Keeps True s u :=
  ((Keeps.of_governed hgoverned (fun hc => hcounters ▸ hc) fun _ => hinboxes).trans h).discharge fun _ he => hA he.2.2

theorem execReport_advances (s : State) : Advances s (execReport s) := by
  unfold execReport
  split
  · exact advances_self s
  next r rest hreports =>
    refine (Keeps.taking (s := s) (A := validRadio r.radio = true) (t := { s with loc.reports := rest }) rfl rfl ?_ ?_
      (State.locEvent_keeps (State.intake_keeps fun hsite => State.applyReport_keeps id hsite))).advances
    · rintro ⟨hcopies, hrep, hframes⟩
      exact ⟨hcopies, fun q hq => hrep q (hreports ▸ List.mem_cons_of_mem r hq), hframes⟩
    · exact fun hi => hi.2.1 r (hreports ▸ List.mem_cons_self)

end Sys2Proof.Machine

/-! The location engine's other events keep every law: registrations, acknowledgements, epochs and audit visits, site changes, STOP, and
the radio actions. -/

namespace Sys2Proof.Machine

variable {A : Prop} {s t u : State}

/-! ### Registrations -/

theorem State.reportUnknown_keeps (k : Nat) (s : State) : Keeps A s (s.reportUnknown k) := by
  unfold State.reportUnknown
  split
  · exact .refl s
  · split
    · exact s.reportAlert_keeps _ _
    · exact .refl s

theorem State.modifyEntry_keeps {k : Nat} {f : Entry → Entry} (hradio : ∀ e, (f e).radio = e.radio)
    (h : A → ConfigurationInRange s → ∀ e, s.entry k = some e → e.sound → (f e).sound) : Keeps A s (s.modifyEntry k f) := by
  unfold State.modifyEntry
  split
  next e hk => exact State.overwrite_keeps hk (hradio e) fun ha hc he => h ha hc e hk he
  next => exact .refl s

/-- A registration of a radio with no entry keeps every law (R9). -/
theorem State.registerNew_keeps {r : Registration} (hradio : A → validRadio r.radio = true) (hg : A → r.talkgroup ≠ 0xFFFF)
    (hnone : s.lookup r.radio = none) (hsite : (s.site r.site).state ≠ .off) : Keeps A s (s.registerNew r) := by
  unfold State.registerNew
  dsimp only
  split
  · exact State.notify_keeps ..
  · split
    · split
      next k u hcreated =>
        obtain ⟨hkeeps, hentry, hmonitor⟩ := State.createEntry_keeps hcreated hradio hnone hsite (adjust_le ..)
        refine .after (State.reportUnknown_keeps ..) (.after (State.notify_keeps ..) (.after (State.modifyEntry_keeps ?_ ?_) hkeeps))
        · exact fun _ => rfl
        · intro ha hc e he hsound
          rw [hentry, Option.some.injEq] at he
          subst he
          have hvalid : validSite r.site = true := hc.validSite_of_ne_off (by rwa [State.site_congr hmonitor])
          exact Entry.BodySound.settled { hsound.body with talkgroup := hg ha, dwell := Nat.zero_le _ } (.inl rfl) hvalid
            ⟨_, List.mem_singleton_self _, rfl⟩ rfl
      next => exact .after (State.count_keeps ..) (.after (State.notify_keeps ..) (State.issueDirective_keeps ..))
    · split
      next hcreated => exact (State.createEntry_keeps hcreated hradio hnone hsite (adjust_le ..)).1
      next => exact s.count_keeps _

/-- An entry taken out of service is UNATTACHED with nothing held (R11). -/
theorem Entry.sound.unattach {e : Entry} (h : e.sound) : Entry.sound { e with state := .unattached, serving := 0, handover := none } :=
  Entry.BodySound.unattached (e := { e with state := .unattached, serving := 0, handover := none }) { h.body with } rfl rfl rfl

/-- An entry attached at a site it hears. -/
theorem Entry.sound.attach {e : Entry} (h : e.sound) {x : Nat} (hx : validSite x = true) (hheard : Hears e.cands x) {g : Talkgroup}
    (hg : g ≠ 0xFFFF) {n : Nat} (hn : n ≤ 255) :
    Entry.sound { e with handover := none, state := .attached, serving := x, dwell := n, talkgroup := g } :=
  Entry.BodySound.settled (e := { e with handover := none, state := .attached, serving := x, dwell := n, talkgroup := g })
    { h.body with talkgroup := hg, dwell := hn } (.inl rfl) hx hheard rfl

theorem State.powerOff_keeps {k : Nat} {e : Entry} (hk : s.entry k = some e) : Keeps A s (s.powerOff k e) := by
  have hk' : (s.leaveSites e).entry k = some e := (State.entry_congr (State.leaveSites_loc e s) k).trans hk
  unfold State.powerOff
  dsimp only
  refine .after (State.notify_keeps ..) (.after ?_ (State.leaveSites_keeps e s))
  split
  · exact State.overwrite_keeps hk' rfl fun _ _ he => he.unattach
  · exact State.freeEntry_keeps ..

theorem State.commit_keeps {k : Nat} {e : Entry} {h : Handover} {g : Talkgroup} (hk : s.entry k = some e) (hho : e.handover = some h)
    (hg : A → g ≠ 0xFFFF) : Keeps A s (s.commit k e h g) := by
  have hk' : (s.release e h.target).entry k = some e := (State.entry_congr (State.release_loc e _ s) k).trans hk
  refine .after (State.notify_keeps ..) (.after (State.overwrite_keeps hk' rfl fun ha _ he => ?_) (State.release_keeps e _ s))
  obtain ⟨-, hsound, hheard⟩ := he.handover hho
  exact he.attach hsound.target hheard (hg ha) (Nat.zero_le _)

theorem State.stayAtServing_keeps {k : Nat} {e : Entry} {h : Handover} {g : Talkgroup} (hk : s.entry k = some e)
    (hserving : (s.site e.serving).state ≠ .off) (hheard : A → Hears e.cands e.serving) (hg : A → g ≠ 0xFFFF) :
    Keeps A s (s.stayAtServing k e h g) := by
  have hk' : (s.cancel e h).entry k = some e := (State.entry_congr (State.cancel_loc e h s) k).trans hk
  refine .after (State.notify_keeps ..) (.after (State.overwrite_keeps hk' rfl fun ha hc he => ?_) (State.cancel_keeps e h s))
  exact he.attach (hc.validSite_of_ne_off (by rwa [State.site_congr (State.cancel_monitor e h s)])) (hheard ha) (hg ha) he.body.dwell

theorem State.selfRoam_keeps {k x : Nat} {e : Entry} {h : Handover} {g : Talkgroup} (hk : s.entry k = some e)
    (hx : (s.site x).state ≠ .off) (hheard : A → Hears e.cands x) (hg : A → g ≠ 0xFFFF) : Keeps A s (s.selfRoam k e h x g) := by
  have hloc : ((s.cancel e h).release e x).loc = s.loc := (State.release_loc e x _).trans (State.cancel_loc e h s)
  have hmonitor : ((s.cancel e h).release e x).monitor = s.monitor := (State.release_monitor e x _).trans (State.cancel_monitor e h s)
  refine .after (State.notify_keeps ..) (.after (State.overwrite_keeps ((State.entry_congr hloc k).trans hk) rfl fun ha hc he => ?_)
    ((State.cancel_keeps e h s).trans (State.release_keeps e x _)))
  exact he.attach (hc.validSite_of_ne_off (by rwa [State.site_congr hmonitor])) (hheard ha) (hg ha) (Nat.zero_le _)

/-- A registration for an entry with no handover keeps every law (R61). -/
theorem State.registerIdle_keeps {k x : Nat} {e : Entry} {g : Talkgroup} (hk : s.entry k = some e) (hnone : A → e.sound → e.handover = none)
    (hx : (s.site x).state ≠ .off) (hheard : A → Hears e.cands x) (hg : A → g ≠ 0xFFFF) : Keeps A s (s.registerIdle k e x g) := by
  have hattach : A → validSite x = true → e.sound → ∀ {n : Nat}, n ≤ 255 →
      Entry.sound { e with state := .attached, serving := x, dwell := n, talkgroup := g } := by
    intro ha hx he n hn
    have hsound := he.attach hx (hheard ha) (hg ha) hn
    rwa [← hnone ha he] at hsound
  have hgroup : A → e.sound → Entry.sound { e with talkgroup := g } := fun ha he =>
    he.of_stay { he.body with talkgroup := hg ha } rfl rfl id
      (fun ho hho => ⟨ho, hho, rfl, (he.handover hho).2.1.retries, (he.handover hho).2.1.age⟩) fun _ _ hh => hh
  cases hs : e.state <;> simp only [State.registerIdle, hs]
  case unattached =>
    exact .after (State.notify_keeps ..) (State.overwrite_keeps hk rfl fun ha hc he => hattach ha (hc.validSite_of_ne_off hx) he (Nat.zero_le _))
  case attached | shadow | moving =>
    split
    next hserving =>
      subst hserving
      split
      · exact .after (State.notify_keeps ..) (State.overwrite_keeps hk rfl fun ha hc he => hattach ha (hc.validSite_of_ne_off hx) he he.body.dwell)
      · exact .after (State.notify_keeps ..) (State.overwrite_keeps hk rfl fun ha _ he => by simpa only [hs] using hgroup ha he)
    next =>
      have hk' : (s.release e x).entry k = some e := (State.entry_congr (State.release_loc e x s) k).trans hk
      have hx' : ((s.release e x).site x).state ≠ .off := by rwa [State.site_congr (State.release_monitor e x s)]
      exact .after (State.notify_keeps ..) (.after (State.overwrite_keeps hk' rfl fun ha hc he =>
        hattach ha (hc.validSite_of_ne_off hx') he (Nat.zero_le _)) (State.release_keeps e x s))

/-- The effect of a registration through an UP site keeps every law (R25 step 5). -/
theorem State.registrationEffect_keeps {k : Nat} {r : Registration} (hup : s.siteUp r.site = true)
    (hheard : A → ∀ e, s.entry k = some e → Hears e.cands r.site) (hg : A → r.talkgroup ≠ 0xFFFF) :
    Keeps A s (s.registrationEffect k r) := by
  have hsite := State.ne_off_of_siteUp hup
  unfold State.registrationEffect
  split
  · exact .refl s
  next e hk =>
    have hheard' : A → Hears e.cands r.site := fun ha => hheard ha e hk
    split
    · exact State.powerOff_keeps hk
    · refine .after (State.reportUnknown_keeps ..) ?_
      split
      next h hm hh =>
        split
        · exact State.commit_keeps hk hh hg
        · split
          next hserving => exact State.stayAtServing_keeps hk (hserving ▸ hsite) (fun ha => hserving ▸ hheard' ha) hg
          next => exact State.selfRoam_keeps hk hsite hheard' hg
      next hnot =>
        refine State.registerIdle_keeps hk (fun _ he => ?_) hsite hheard' hg
        cases hh : e.handover with
        | none => rfl
        | some h => exact (hnot h (he.handover hh).1 hh).elim

/-- A registration applied keeps every law. -/
theorem State.applyRegistration_keeps {r : Registration} (hradio : A → validRadio r.radio = true) (hg : A → r.talkgroup ≠ 0xFFFF)
    (hsite : (s.site r.site).state ≠ .off) : Keeps A s (s.applyRegistration r) := by
  unfold State.applyRegistration
  split
  next hnone => exact State.registerNew_keeps hradio hg hnone hsite
  next k e hfound =>
    dsimp only
    generalize ha : adjust (s.site r.site).cfg.offset (registrationQuality r.quality) = a
    have hle : a ≤ 63 := ha ▸ adjust_le ..
    have hscored : Keeps A s (s.scoreEntry k r.site (some a) true) :=
      State.scoreEntry_keeps (fun q hq => Option.some.inj hq ▸ hle) hsite
    refine .after (State.roamDecision_keeps ..) ?_
    split
    next hup =>
      have hup' : (s.scoreEntry k r.site (some a) true).siteUp r.site = true := by
        rwa [State.scoreEntry, State.siteUp_congr (State.modifyEntry_monitor ..)]
      refine ((hscored.discharge (fun h _ => h.1)).trans (State.registrationEffect_keeps
        (A := A ∧ ∀ e, (s.scoreEntry k r.site (some a) true).entry k = some e → Hears e.cands r.site)
        hup' (fun h => h.2) fun h => hg h.1)).discharge fun h hlaws => ⟨h, fun e1 he1 => ?_⟩
      unfold State.scoreEntry at he1
      cases hk : s.entry k with
      | none => simp only [State.modifyEntry, hk] at he1; cases he1
      | some e0 =>
        rw [State.modifyEntry_of_entry hk, State.entry_writeEntry_self, Option.some.injEq] at he1
        subst he1
        obtain ⟨x, y, huses⟩ := e0.uses_two
        exact hears_updateCands_site (hlaws.1.slotSound k e0 hk).body.cands huses
    next => exact hscored

theorem execRegistration_advances (s : State) : Advances s (execRegistration s) := by
  unfold execRegistration
  split
  next r rest hframes =>
    refine (Keeps.taking (s := s) (A := validRadio r.radio = true ∧ r.talkgroup ≠ 0xFFFF) (t := { s with loc.frames := rest }) rfl rfl
      ?_ ?_ (State.locEvent_keeps (State.intake_keeps fun hsite =>
        State.applyRegistration_keeps And.left And.right hsite))).advances
    · rintro ⟨hcopies, hreports, hfr⟩
      exact ⟨hcopies, hreports, fun q hq => hfr q (hframes ▸ List.mem_cons_of_mem _ hq)⟩
    · exact fun hi => hi.2.2 r (hframes ▸ List.mem_cons_self)
  next => exact advances_self s

/-! ### Acknowledgements -/

theorem State.applyAck_keeps (a : DirectiveAck) (s : State) : Keeps A s (s.applyAck a) := by
  unfold State.applyAck
  split
  · exact s.count_keeps _
  next k e hfound =>
    split
    next h hm hh =>
      split
      · split
        · refine .of_tables rfl rfl fun hs => State.overwrite_keeps (State.entry_of_lookup hs.2.2.1 hfound) rfl fun _ _ he => ?_
          exact he.of_stay { he.body with } rfl rfl (fun hn => by rw [hh] at hn; cases hn)
            (fun ho hho => by
              obtain rfl : h = ho := Option.some.inj (hh.symm.trans hho)
              exact ⟨_, rfl, rfl, (he.handover hh).2.1.retries, (he.handover hh).2.1.age⟩) fun _ _ hx => hx
        · exact .of_tables (State.abandon_pending ..) (State.abandon_now ..) fun hs =>
            State.abandon_keeps (State.entry_of_lookup hs.2.2.1 hfound) hh
      · exact s.count_keeps _
    next => exact s.count_keeps _

theorem execDirectiveAck_advances (s : State) : Advances s (execDirectiveAck s) := by
  unfold execDirectiveAck
  split
  next a rest hframes =>
    refine (Keeps.taking (s := s) (A := True) (t := { s with loc.frames := rest }) rfl rfl ?_ (fun _ => trivial)
      (State.locEvent_keeps (State.intake_keeps fun _ => State.applyAck_keeps ..))).advances
    rintro ⟨hcopies, hreports, hfr⟩
    exact ⟨hcopies, hreports, fun q hq => hfr q (hframes ▸ List.mem_cons_of_mem _ hq)⟩
  next => exact advances_self s

/-! ### Epochs and audit visits -/

/-- A change of run state, epoch, boundary and visits keeps every law if it keeps theirs. -/
theorem Keeps.of_clock {mode : RunState} {epoch : Epoch} {boundary : Option Nat} {visits : List Nat}
    (hepoch : EpochLaw s → (mode = .run ↔ boundary.isSome = true) ∧ (mode = .load → visits = []))
    (hvisits : EntryTableSound s → ∀ k ∈ visits, (s.entry k).isSome = true) :
    Keeps A s { s with mgmt.run := mode, loc.epoch := epoch, loc.boundary := boundary, loc.visits := visits } where
  pending := rfl
  now := rfl
  tables hs := hs
  config _ hc := hc
  entries _ _ _ he := ⟨he.1, ⟨he.2.1.1, he.2.1.2.1, hvisits he.2.1⟩, he.2.2⟩
  counts _ _ _ _ hn := hn
  queues _ _ hq := hq
  control _ _ hq := ⟨hepoch hq.1, hq.2⟩
  locked _ hl hb := ⟨⟨hl, fun _ => rfl, rfl, rfl, rfl, fun _ _ => rfl⟩, hb⟩

/-- Every listed slot is occupied. -/
theorem isSome_at?_of_mem {t : Tab Entry} {p : Nat × Entry} (h : p ∈ t) : (t.at? p.1).isSome = true := by
  induction t with
  | nil => cases h
  | cons q t ih =>
    obtain ⟨j, w⟩ := q
    rw [Tab.at?]
    split
    · rfl
    next hne =>
      rcases List.mem_cons.mp h with rfl | h
      · exact absurd rfl hne
      · exact ih h

theorem execEpochBoundary_advances (s : State) : Advances s (execEpochBoundary s) := by
  unfold execEpochBoundary
  split
  next b hb =>
    split
    next h =>
      refine (Keeps.of_clock (mode := s.mgmt.run) (fun _ => ⟨by simp [h.1], fun hload => ?_⟩) fun _ k hk => ?_).advances
      · rw [h.1] at hload; cases hload
      · obtain ⟨p, hp, rfl⟩ := List.mem_map.mp hk
        exact isSome_at?_of_mem hp
    next => exact advances_self s
  next => exact advances_self s

theorem holdInc_le {n : Nat} (h : n ≤ 255) : holdInc n ≤ 255 := by
  unfold holdInc
  split <;> omega

/-- An entry whose counters moved is sound (R18). -/
theorem Entry.sound.ageCounters {e : Entry} (h : e.sound) : e.ageCounters.sound := by
  have hbody : e.ageCounters.BodySound :=
    { h.body with
      dwell := holdInc_le h.body.dwell
      shadow := by
        change (if e.state = .shadow then holdInc e.shadow else e.shadow) ≤ 255
        split
        · exact holdInc_le h.body.shadow
        · exact h.body.shadow
      failed := by
        intro f hf
        obtain ⟨g, hg, hnext⟩ := Option.bind_eq_some_iff.mp hf
        obtain ⟨hsite, hlow, hhigh⟩ := h.body.failed g hg
        split at hnext <;> cases hnext
        exact ⟨hsite, by dsimp only; omega, by dsimp only; omega⟩ }
  refine h.of_stay hbody rfl rfl (fun hnone => ?_) (fun ho hho => ?_) fun _ _ hx => hx
  · simp [Entry.ageCounters, hnone]
  · obtain ⟨hm, hsound, -⟩ := h.handover hho
    exact ⟨{ ho with age := holdInc ho.age }, by simp [Entry.ageCounters, hm, hho], rfl, hsound.retries, holdInc_le hsound.age⟩

/-- An entry without its stale candidates is sound: those it uses are never stale (R18). -/
theorem Entry.sound.dropStale {e : Entry} (h : e.sound) (now : Epoch) (limit : Nat) : (e.dropStale now limit).sound :=
  h.of_stay { h.body with cands := h.body.cands.filter _ } rfl rfl id
    (fun ho hho => ⟨ho, hho, rfl, (h.handover hho).2.1.retries, (h.handover hho).2.1.age⟩)
    fun x huses ⟨c, hc, hx⟩ => ⟨c, List.mem_filter.mpr ⟨hc, by simp [hx, huses]⟩, hx⟩

theorem State.retry_keeps {k : Nat} {e : Entry} {h : Handover} (hk : s.entry k = some e) (hho : e.handover = some h)
    (hleft : h.retries < (s.policy e).retryLimit) : Keeps A s (s.retry k e h) := by
  unfold State.retry
  dsimp only
  refine .after (State.overwrite_keeps (e := e) ?_ rfl fun _ hc he => ?_)
    ((State.issueDirective_keeps _ s).trans (State.issueDirective_keeps ..))
  · rw [State.entry_congr ((State.issueDirective_loc ..).trans (State.issueDirective_loc ..)), hk]
  · have hlimit : (s.policy e).retryLimit ≤ 3 := by
      obtain ⟨-, -, -, -, -, -, -, -, -, -, -, -, hretry⟩ := hc.policy_inRange e
      simpa [State.policy] using hretry
    exact he.of_stay { he.body with } rfl rfl (fun hn => by rw [hho] at hn; cases hn)
      (fun ho hho' => by
        obtain rfl : h = ho := Option.some.inj (hho.symm.trans hho')
        exact ⟨_, rfl, rfl, by dsimp only; omega, Nat.zero_le _⟩) fun _ _ hx => hx

theorem State.lose_keeps {k : Nat} {e : Entry} (hk : s.entry k = some e) (hs : e.state = .shadow) : Keeps A s (s.lose k e) := by
  refine .after (State.notify_keeps ..) (State.overwrite_keeps hk rfl fun _ _ he => ?_)
  exact Entry.BodySound.unattached (e := { e with state := .unattached, serving := 0 }) { he.body with } rfl rfl
    (he.settled (.inr hs)).2

theorem State.checkState_keeps (k : Nat) (s : State) : Keeps A s (s.checkState k) := by
  unfold State.checkState
  split
  · exact .refl s
  next e hk =>
    dsimp only
    split
    next hs =>
      split
      · exact State.enterShadow_keeps hk hs
      · exact .refl s
    next hs =>
      split
      · exact State.lose_keeps hk hs
      · exact .refl s
    next h hm hh =>
      split
      · split
        next hleft => exact State.retry_keeps hk hh hleft
        next => exact State.abandon_keeps hk hh
      · exact .refl s
    next => exact .refl s
    next => exact .refl s

theorem State.purge_keeps (k : Nat) (s : State) : Keeps A s (s.purge k) := by
  unfold State.purge
  split
  · exact .refl s
  · split
    · exact .after (State.count_keeps ..) (State.freeEntry_keeps k s)
    · exact .refl s

theorem State.visit_keeps (k : Nat) (s : State) : Keeps A s (s.visit k) :=
  .after (State.purge_keeps ..) (.after (State.roamDecision_keeps ..) (.after (State.checkState_keeps ..)
    (.after (State.modifyEntry_keeps (fun _ => rfl) fun _ _ _ _ he => he.dropStale _ _)
      (State.modifyEntry_keeps (fun _ => rfl) fun _ _ _ _ he => he.ageCounters))))

theorem execAuditVisit_advances (k : Nat) (s : State) : Advances s (execAuditVisit k s) := by
  unfold execAuditVisit
  split
  next h =>
    refine (Keeps.trans (t := visitTaken s k) (.of_clock (fun hlaw => ⟨hlaw.1, fun hload => ?_⟩) fun hs j hj => ?_)
      (State.locEvent_keeps (State.visit_keeps k _))).advances
    · rw [hlaw.2 hload]; rfl
    · exact hs.2.2 j (List.mem_filter.mp hj).1
  next => exact advances_self s

/-! ### Site changes and STOP at an entry -/

theorem State.takeEntryReport_keeps (r : EntryReport) (s : State) : Keeps A s (s.takeEntryReport r) := .aside rfl rfl rfl rfl rfl

theorem State.siteLeftUp_keeps (k x : Nat) (s : State) : Keeps A s (s.siteLeftUp k x) := by
  unfold State.siteLeftUp
  split
  · exact .refl s
  next e hk =>
    split
    next hs =>
      split
      · exact State.enterShadow_keeps hk hs
      · exact .refl s
    next h hm hh =>
      split
      · exact State.abandon_keeps hk hh
      · exact .refl s
    all_goals exact .refl s

theorem execSiteLeftUpEntry_advances (k : Nat) (s : State) : Advances s (execSiteLeftUpEntry k s) := by
  unfold execSiteLeftUpEntry
  split
  · split
    · exact ((State.takeEntryReport_keeps _ s).trans (State.locEvent_keeps (State.siteLeftUp_keeps ..))).advances
    · exact advances_self s
  · exact advances_self s

/-- An entry may lose the record of a site it does not use. -/
theorem Entry.sound.dropCand {e : Entry} (h : e.sound) {x : Nat} (hserving : e.serving ≠ x)
    (htarget : ∀ ho, e.handover = some ho → ho.target ≠ x) : Entry.sound { e with cands := Machine.dropCand x e.cands } := by
  refine h.of_stay { h.body with cands := h.body.cands.filter _ } rfl rfl id
    (fun ho hho => ⟨ho, hho, rfl, (h.handover hho).2.1.retries, (h.handover hho).2.1.age⟩) fun y huses hy => ?_
  refine hears_dropCand.mpr ⟨hy, ?_⟩
  rintro rfl
  cases hh : e.handover with
  | none =>
    have heq : y = e.serving := by simpa [Entry.uses, hh] using huses
    exact hserving heq.symm
  | some ho =>
    have hor : y = e.serving ∨ y = ho.target := by simpa [Entry.uses, hh] using huses
    exact hor.elim (fun heq => hserving heq.symm) fun heq => htarget ho hh heq.symm

/-- A sound entry that holds no handover and another serving site, or none, does not use a site. -/
theorem State.dropSite_keeps {k x : Nat} {e : Entry} (hk : s.entry k = some e) (hserving : A → e.sound → e.serving ≠ x ∨ e.serving = 0)
    (htarget : A → e.sound → ∀ ho, e.handover = some ho → ho.target ≠ x) : Keeps A s (s.dropSite k x) := by
  unfold State.dropSite
  rw [State.modifyEntry_of_entry hk]
  refine State.overwrite_keeps hk rfl fun ha _ he => ?_
  by_cases h0 : e.serving = x
  · have hzero : e.serving = 0 := (hserving ha he).resolve_left fun h => h h0
    refine he.of_stay { he.body with cands := he.body.cands.filter _ } rfl rfl id
      (fun ho hho => ⟨ho, hho, rfl, (he.handover hho).2.1.retries, (he.handover hho).2.1.age⟩) fun y _ hy => ?_
    refine hears_dropCand.mpr ⟨hy, ?_⟩
    rintro rfl
    obtain ⟨c, hc, hcy⟩ := hy
    exact ne_zero_of_validSite (he.body.cands.each c hc).1 (hcy.trans (h0.symm.trans hzero))
  · exact he.dropCand h0 (htarget ha he)

theorem State.siteRemoved_keeps (k x : Nat) (s : State) : Keeps A s (s.siteRemoved k x) := by
  have hnone : ∀ {e : Entry}, e.state ≠ .moving → A → e.sound → ∀ ho, e.handover = some ho → ho.target ≠ x :=
    fun hm _ he ho hho => absurd (he.handover hho).1 hm
  unfold State.siteRemoved
  split
  · exact .refl s
  next e hk =>
    have hlost : e.state = .attached ∨ e.state = .shadow → A → ConfigurationInRange s → e.sound →
        Entry.sound { e with state := .unattached, serving := 0, cands := Machine.dropCand x e.cands } := fun hs _ _ he =>
      Entry.BodySound.unattached (e := { e with state := .unattached, serving := 0, cands := Machine.dropCand x e.cands })
        { he.body with cands := he.body.cands.filter _ } rfl rfl (he.settled hs).2
    split
    next h hm hh =>
      split
      next htarget =>
        have hdropped : Keeps e.sound (s.abandon k e h) ((s.abandon k e h).dropSite k x) :=
          State.dropSite_keeps (State.abandon_entry k e h s)
            (fun he _ => .inl (htarget ▸ (he.handover hh).2.1.ne_serving.symm)) fun _ _ ho hho => nomatch hho
        exact ((State.abandon_keeps hk hh).trans hdropped).discharge fun _ hlaws => hlaws.1.slotSound k e hk
      next htarget =>
        split
        next hserving =>
          refine State.overwrite_keeps hk rfl fun _ _ he => ?_
          obtain ⟨-, hsound, hheard⟩ := he.handover hh
          exact Entry.BodySound.moving (e := { e with serving := 0, cands := Machine.dropCand x e.cands })
            { he.body with cands := he.body.cands.filter _ } hm (fun h0 => absurd rfl h0) hh
            ⟨hsound.target, ne_zero_of_validSite hsound.target, hsound.retries, hsound.age⟩
            (hears_dropCand.mpr ⟨hheard, htarget⟩)
        next hserving =>
          refine State.dropSite_keeps hk (fun _ _ => .inl hserving) fun _ _ ho hho => ?_
          rw [hh, Option.some.injEq] at hho
          exact hho ▸ htarget
    next hs =>
      split
      next => exact .after (State.notify_keeps ..) (State.overwrite_keeps hk rfl (hlost (.inl hs)))
      next hserving => exact State.dropSite_keeps hk (fun _ _ => .inl hserving) (hnone (by rw [hs]; decide))
    next hs =>
      split
      next => exact .after (State.notify_keeps ..) (State.overwrite_keeps hk rfl (hlost (.inr hs)))
      next hserving => exact State.dropSite_keeps hk (fun _ _ => .inl hserving) (hnone (by rw [hs]; decide))
    next hm hh =>
      exact State.dropSite_keeps hk (fun _ he => absurd hh (by obtain ⟨ho, hho, -⟩ := he.moving hm; rw [hho]; simp))
        fun _ _ ho hho => by rw [hh] at hho; cases hho
    next hs => exact State.dropSite_keeps hk (fun _ he => .inr (he.unattached hs).1) (hnone (by rw [hs]; decide))

theorem execSiteRemovedEntry_advances (k : Nat) (s : State) : Advances s (execSiteRemovedEntry k s) := by
  unfold execSiteRemovedEntry
  split
  · split
    · exact ((State.takeEntryReport_keeps _ s).trans (State.locEvent_keeps (State.siteRemoved_keeps ..))).advances
    · exact advances_self s
  · exact advances_self s

theorem State.endHandover_keeps (k : Nat) (s : State) : Keeps A s (s.endHandover k) := by
  unfold State.endHandover
  split
  · exact .refl s
  next e hk =>
    split
    next h hm hh =>
      dsimp only
      generalize hnext : (if e.serving = 0 then RadioState.unattached else if s.siteUp e.serving = true then .attached else .shadow) = n
      generalize hshadow : (if n = .shadow then 0 else e.shadow) = m
      have hk' : (s.cancel e h).entry k = some e := (State.entry_congr (State.cancel_loc e h s) k).trans hk
      have hwritten : Keeps A s ((s.cancel e h).writeEntry k (some { e with handover := none, state := n, shadow := m })) := by
        refine .after (State.overwrite_keeps hk' rfl fun _ _ he => ?_) (State.cancel_keeps e h s)
        have hle : m ≤ 255 := by
          rw [← hshadow]
          split
          · exact Nat.zero_le _
          · exact he.body.shadow
        have hbody : Entry.BodySound { e with handover := none, state := n, shadow := m } := { he.body with shadow := hle }
        by_cases h0 : e.serving = 0
        · rw [if_pos h0] at hnext
          exact hbody.unattached hnext.symm h0 rfl
        · rw [if_neg h0] at hnext
          refine hbody.settled ?_ (he.serving h0).1 (he.serving h0).2 rfl
          split at hnext
          · exact .inl hnext.symm
          · exact .inr hnext.symm
      split
      · exact .after (State.notifyShadow_keeps ..) (.after (State.notify_keeps ..) hwritten)
      · exact .after (State.notify_keeps ..) hwritten
    next => exact .refl s

theorem execStopHandoverEnd_advances (k : Nat) (s : State) : Advances s (execStopHandoverEnd k s) := by
  unfold execStopHandoverEnd
  split
  · exact (Keeps.trans (.aside (s := s) (t := { s with loc.stopReports := s.loc.stopReports.filter (· != k) }) rfl rfl rfl rfl rfl)
      (State.locEvent_keeps (State.endHandover_keeps k _))).advances
  · exact advances_self s

/-! ### Radio actions -/

/-- An entry changed as it was just written: one write. -/
theorem State.modifyEntry_writeEntry {k : Nat} {e : Entry} {f : Entry → Entry} (h : Alike (some e) (some (f e))) (s : State) :
    (s.writeEntry k (some e)).modifyEntry k f = s.writeEntry k (some (f e)) := by
  rw [State.modifyEntry_of_entry (State.entry_writeEntry_self ..), State.writeEntry_writeEntry_alike h]

/-- The candidate list of an entry forced to a site (R51). -/
def forcedCands (s : State) (e : Entry) (x : Nat) : List Candidate :=
  if (candOf x e.cands).isSome then e.cands
  else addCand (s.policy e) s.loc.epoch e.uses true { site := x, score := 0, scoreEpoch := s.loc.epoch, heardEpoch := s.loc.epoch } e.cands

/-- FORCE_ROAM's start of a handover, as one write of the entry (R51). -/
theorem State.forceRoam_started (k : Nat) (e : Entry) (x : Nat) (s u : State) :
    ((u.writeEntry k (some (movedTo e x .forced))).modifyEntry k fun e' =>
      if (candOf x e'.cands).isSome then e'
      else
        { e' with
          cands := addCand (s.policy e) s.loc.epoch e.uses true
            { site := x, score := 0, scoreEpoch := s.loc.epoch, heardEpoch := s.loc.epoch } e'.cands }) =
      u.writeEntry k (some { movedTo e x .forced with cands := forcedCands s e x }) := by
  by_cases hheard : (candOf x e.cands).isSome = true
  · have hsame : (candOf x (movedTo e x .forced).cands).isSome = true := hheard
    rw [State.modifyEntry_writeEntry (by rw [if_pos hsame]; exact ⟨rfl, rfl, rfl, rfl⟩), if_pos hsame, forcedCands, if_pos hheard]
    rfl
  · have hnew : ¬(candOf x (movedTo e x .forced).cands).isSome = true := hheard
    rw [State.modifyEntry_writeEntry (by rw [if_neg hnew]; exact Alike.of_kept rfl rfl rfl rfl rfl), if_neg hnew, forcedCands,
      if_neg hheard]
    rfl

/-- The list of an entry forced to a site is sound, and holds the site and those it held of the sites in use. -/
theorem forcedCands_sound {e : Entry} (h : CandsSound e.cands) {x : Nat} (hx : validSite x = true) (s : State) :
    CandsSound (forcedCands s e x) ∧ Hears (forcedCands s e x) x ∧ (Hears e.cands e.serving → Hears (forcedCands s e x) e.serving) := by
  obtain ⟨a, b, huses⟩ := e.uses_two
  unfold forcedCands
  split
  next hheard => exact ⟨h, candOf_isSome_iff.mp hheard, id⟩
  next hnew =>
    exact ⟨addCand_sound h (fun hh => hnew (candOf_isSome_iff.mpr hh)) hx (Nat.zero_le _), hears_addCand_new h huses,
      hears_addCand (by simp [Entry.uses])⟩

theorem State.forceRoam_keeps (radio : RadioId) (x : Nat) (s : State) : Keeps A s (s.forceRoam radio x).1 := by
  unfold State.forceRoam
  split
  · exact .refl s
  split
  · exact .refl s
  next k e hfound =>
    split
    · exact .refl s
    split
    · exact .refl s
    next hstate =>
      split
      · exact .refl s
      next htarget =>
        simp only [Bool.or_eq_true, Bool.not_eq_true', beq_iff_eq, not_or, Bool.not_eq_false] at htarget
        obtain ⟨⟨hvalid, hne⟩, -⟩ := htarget
        obtain ⟨u, hkeeps, hloc, -, hform⟩ := s.startHandover_form k e x .forced
        rcases hform with hform | hform
        · rw [hform]; exact hkeeps A
        · rw [hform]
          dsimp only
          rw [State.forceRoam_started]
          refine .after ?_ (hkeeps A)
          refine .of_tables rfl rfl fun hs => ?_
          have hk : u.entry k = some e :=
            (State.entry_congr hloc k).trans (State.entry_of_lookup (by rw [← hloc]; exact hs.2.2.1) hfound)
          refine State.overwrite_keeps hk rfl fun _ _ he => ?_
          have hsettled : e.state = .attached ∨ e.state = .shadow := by
            rw [Classical.not_and_iff_not_or_not, Classical.not_not, Classical.not_not] at hstate
            exact hstate
          obtain ⟨hcands, hheard, hserving⟩ := forcedCands_sound he.body.cands hvalid s
          exact he.movedTo hsettled hvalid hne .forced hcands
            (hserving (he.serving (ne_zero_of_validSite (he.settled hsettled).1)).2) hheard

theorem State.evict_keeps (radio : RadioId) (s : State) : Keeps A s (s.evict radio).1 := by
  unfold State.evict
  split
  · exact .refl s
  split
  · exact .refl s
  · exact .after (State.notify_keeps ..) (.after (State.freeEntry_keeps ..) (State.leaveSites_keeps _ s))

theorem State.clearEmergency_keeps (radio : RadioId) (s : State) : Keeps A s (s.clearEmergency radio).1 := by
  unfold State.clearEmergency
  split
  · exact .refl s
  next k e hfound =>
    dsimp only
    split
    · exact .of_tables rfl rfl fun hs => State.overwrite_keeps (State.entry_of_lookup hs.2.2.1 hfound) rfl fun _ _ he => he
    · exact .refl s

end Sys2Proof.Machine

/-! The line and the vote unit keep every law. -/

namespace Sys2Proof.Machine

variable {A : Prop} {s t u : State}

/-! ### The line -/

/-- A port's receiver replaced by one of no more than four invalid symbols keeps every law. -/
theorem State.putPort_keeps (p : Port) {r : PortState} (hr : r.badSymbols ≤ 4) : Keeps A s (s.putPort p r) := by
  have hports : FiguresInRange s → ∀ q, ((s.putPort p r).portState q).badSymbols ≤ 4 := by
    intro hf q
    have hold := hf.2.2.2.1 q
    match p, q, hold with
    | .site, .site, _ | .core, .core, _ => exact hr
    | .site, .core, hold | .core, .site, hold => exact hold
  cases p <;>
    exact {
      pending := rfl
      now := rfl
      tables := fun hs => hs
      config := fun _ hc => hc
      entries := fun _ _ _ he => he
      counts := fun _ _ _ _ hn => hn
      queues := fun _ _ hq => hq
      control := fun _ _ ⟨h1, h2, h3, hf, h5⟩ => ⟨h1, h2, h3, ⟨hf.1, hf.2.1, hf.2.2.1, hports hf, hf.2.2.2.2⟩, h5⟩
      locked := fun _ hl hb => ⟨⟨hl, fun _ => rfl, rfl, rfl, rfl, fun _ _ => rfl⟩, hb⟩ }

theorem State.cutOff_keeps (p : Port) (s : State) : Keeps A s (s.cutOff p) := by
  cases p <;> exact .aside rfl rfl rfl rfl rfl

theorem execSyncGained_advances (p : Port) (s : State) : Advances s (execSyncGained p s) := by
  unfold execSyncGained
  split
  · exact advances_self s
  · exact (State.putPort_keeps p (Nat.zero_le 4)).advances

theorem execSyncLost_advances (p : Port) (cause : SyncLossCause) (s : State) : Advances s (execSyncLost p cause s) := by
  unfold execSyncLost
  split
  · exact Keeps.advances (.after (State.reportAlert_keeps ..) (.after (State.count_keeps ..)
      (.after (State.cutOff_keeps p _) (State.putPort_keeps p (Nat.zero_le 4)))))
  · exact advances_self s

theorem PortState.badAfter_le (r : PortState) (clean : Nat) : r.badAfter clean ≤ 4 := by
  unfold PortState.badAfter
  split <;> omega

theorem execInvalidSymbol_advances (p : Port) (inFrame : Bool) (clean : Nat) (s : State) :
    Advances s (execInvalidSymbol p inFrame clean s) := by
  unfold execInvalidSymbol
  dsimp only
  split
  · refine Keeps.advances ?_
    split
    · exact .after (State.count_keeps ..) (State.putPort_keeps p (PortState.badAfter_le ..))
    · exact State.putPort_keeps p (PortState.badAfter_le ..)
  · exact advances_self s

theorem execFrameTooLong_advances (p : Port) (s : State) : Advances s (execFrameTooLong p s) := by
  unfold execFrameTooLong
  split
  · exact (s.count_keeps _).advances
  · exact advances_self s

/-- A frame read is what its kind's parser made of its body. -/
theorem readFrame_ok {p : Port} {bytes : List Byte} {ending : FrameEnd} {unit : Byte} {f : ReceivedFrame}
    (h : readFrame p bytes ending = .ok (unit, f)) :
    ∃ (kind : Byte) (parse : List Byte → Option ReceivedFrame) (body : List Byte),
      kindParser p kind.toNat = some parse ∧ parse body = some f := by
  unfold readFrame at h
  split at h
  · cases h
  split at h
  · cases h
  split at h
  next kind _ _ _ _ =>
    split at h
    · cases h
    dsimp only at h
    split at h
    · cases h
    split at h
    · cases h
    next parse hparse =>
      split at h
      · cases h
      next hf =>
        simp only [Except.ok.injEq, Prod.mk.injEq] at h
        obtain ⟨-, rfl⟩ := h
        exact ⟨kind, parse, _, hparse, hf⟩
  next => cases h

/-- No registration is read with talkgroup 65535 (R62). -/
theorem talkgroup_of_readFrame {p : Port} {bytes : List Byte} {ending : FrameEnd} {unit : Byte} {r : Registration}
    (h : readFrame p bytes ending = .ok (unit, .registration r)) : r.talkgroup ≠ 0xFFFF := by
  obtain ⟨kind, parse, body, hparse, hf⟩ := readFrame_ok h
  have hregistration : parseRegistration body = some (.registration r) := by
    have hkind := ((kindParser_reads_iff p kind parse hparse body).2 _ hf).1
    have hport := ((kindParser_reads_iff p kind parse hparse body).2 _ hf).2
    subst hkind hport
    cases hparse
    exact hf
  unfold parseRegistration at hregistration
  split at hregistration
  · obtain ⟨w, -, hw⟩ := Option.map_eq_some_iff.mp hregistration
    cases hw
    dsimp only [registeredTalkgroup]
    split
    · decide
    · assumption
  · cases hregistration

/-- A frame accepted names a valid radio, if it names one (R136 check 4). -/
theorem State.validRadio_of_checkFrame {unit : Byte} {f : ReceivedFrame} (h : s.checkFrame unit f = none) {radio : RadioId}
    (hradio : f.radio? = some radio) : validRadio radio = true := by
  unfold State.checkFrame at h
  rw [hradio] at h
  dsimp only at h
  cases hv : validRadio radio with
  | true => rfl
  | false => rw [hv] at h; cases h

theorem State.route_keeps {f : ReceivedFrame} (hradio : ∀ radio, f.radio? = some radio → validRadio radio = true)
    (hg : ∀ r, f = .registration r → r.talkgroup ≠ 0xFFFF) : Keeps A s (s.route f) := by
  cases f with
  | reception c =>
    refine .of_governed rfl id fun _ hi => ⟨fun q hq => ?_, hi.2⟩
    rcases List.mem_append.mp hq with hq | hq
    · exact hi.1 q hq
    · rw [List.mem_singleton.mp hq]; exact hradio c.radio rfl
  | registration r =>
    refine .of_governed rfl id fun _ hi => ⟨hi.1, hi.2.1, fun q hq => ?_⟩
    rcases List.mem_append.mp hq with hq | hq
    · exact hi.2.2 q hq
    · cases List.mem_singleton.mp hq; exact ⟨hradio r.radio rfl, hg r rfl⟩
  | ack a =>
    refine .of_governed rfl id fun _ hi => ⟨hi.1, hi.2.1, fun q hq => ?_⟩
    rcases List.mem_append.mp hq with hq | hq
    · exact hi.2.2 q hq
    · cases List.mem_singleton.mp hq
  | heartbeat | downlink | relay | request => exact .aside rfl rfl rfl rfl rfl

/-- A frame accepted was read from its bytes and passed the checks. -/
theorem State.classify_ok {p : Port} {bytes : List Byte} {ending : FrameEnd} {f : ReceivedFrame} (h : s.classify p bytes ending = .ok f) :
    ∃ unit, readFrame p bytes ending = .ok (unit, f) ∧ s.checkFrame unit f = none := by
  unfold State.classify at h
  split at h
  · cases h
  next unit f' hread =>
    split at h
    · cases h
    next hchecked =>
      cases h
      exact ⟨unit, hread, hchecked⟩

theorem State.takeFrame_keeps (p : Port) (bytes : List Byte) (ending : FrameEnd) (s : State) :
    Keeps A s (s.takeFrame p bytes ending) := by
  unfold State.takeFrame
  split
  · exact s.count_keeps _
  next f hclassified =>
    obtain ⟨unit, hread, hchecked⟩ := State.classify_ok hclassified
    refine .after (State.route_keeps ?_ ?_) (State.count_keeps _ s)
    · exact fun radio hr => State.validRadio_of_checkFrame hchecked hr
    · rintro r rfl
      exact talkgroup_of_readFrame hread

theorem execFrameReceived_advances (p : Port) (bytes : List Byte) (ending : FrameEnd) (s : State) :
    Advances s (execFrameReceived p bytes ending s) := by
  unfold execFrameReceived
  split
  · exact (State.takeFrame_keeps ..).advances
  · exact advances_self s

/-! ### Call records -/

/-- A change of the call table keeps every law if it keeps those of the call table. -/
theorem Keeps.of_calls {cs : Tab CallRecord} (hsorted : s.vote.calls.sorted = true → cs.sorted = true)
    (hsound : s.vote.calls.sorted = true → CallsSound s → CallsSound { s with vote.calls := cs }) :
    Keeps A s { s with vote.calls := cs } where
  pending := rfl
  now := rfl
  tables := fun ⟨h1, h2, hrest⟩ => ⟨h1, hsorted h2, hrest⟩
  config _ hc := hc
  entries _ _ _ he := he
  counts _ _ _ _ hn := hn
  queues _ _ hq := hq
  control hs _ hq := ⟨hq.1, hq.2.1, hsound hs.2.1 hq.2.2.1, hq.2.2.2⟩
  locked _ hl hb := ⟨⟨hl, fun _ => rfl, rfl, rfl, rfl, fun _ _ => rfl⟩, hb⟩

/-- A call record as R88 and R89 describe one. -/
def CallRecord.Sound (r : CallRecord) : Prop := r.callType ≠ .ping ∧ r.copies ≤ 255 ∧ ∀ b, r.best = some b → b.quality ≤ 63

/-- The key of a call record (R88). -/
def CallRecord.callKey (r : CallRecord) : RadioId × BitVec 8 := (r.radio, r.tag)

theorem CallsSound.record {k : Nat} {r : CallRecord} (h : CallsSound s) (hk : s.vote.calls.at? k = some r) : k < 48 ∧ r.Sound :=
  h.1 _ (Tab.mem_of_at? hk)

theorem CallsSound.key_unique {k j : Nat} {r q : CallRecord} (hs : s.vote.calls.sorted = true) (h : CallsSound s)
    (hk : (k, r) ∈ s.vote.calls) (hj : (j, q) ∈ s.vote.calls) (heq : r.callKey = q.callKey) : k = j :=
  (nodup_map_iff CallRecord.callKey hs).mp h.2 _ hk _ hj heq

/-- Records taken from a sound table leave it sound. -/
theorem CallsSound.erase {k : Nat} (hs : s.vote.calls.sorted = true) (h : CallsSound s) :
    CallsSound { s with vote.calls := s.vote.calls.erase k } :=
  ⟨fun p hp => h.1 p (Tab.mem_erase.mp hp).1, (nodup_map_iff CallRecord.callKey (Tab.sorted_erase hs)).mpr fun _ hp _ hq heq =>
    CallsSound.key_unique hs h (Tab.mem_erase.mp hp).1 (Tab.mem_erase.mp hq).1 heq⟩

/-- A sound record written where no other record has its key leaves the table sound. -/
theorem CallsSound.insert {k : Nat} {r : CallRecord} (hs : s.vote.calls.sorted = true) (h : CallsSound s) (hk : k < 48) (hr : r.Sound)
    (hother : ∀ p ∈ s.vote.calls, p.1 ≠ k → p.2.callKey ≠ r.callKey) :
    CallsSound { s with vote.calls := s.vote.calls.insert k r } := by
  refine ⟨fun p hp => ?_, (nodup_map_iff CallRecord.callKey (Tab.sorted_insert hs)).mpr fun p hp q hq heq => ?_⟩
  · rcases Tab.mem_insert hp with rfl | hp
    · exact ⟨hk, hr⟩
    · exact h.1 p hp
  · refine Classical.byContradiction fun hne => ?_
    rcases Tab.mem_insert hp with rfl | hp <;> rcases Tab.mem_insert hq with rfl | hq
    · exact hne rfl
    · exact hother q hq (fun h => hne h.symm) heq.symm
    · exact hother p hp hne heq
    · exact hne (CallsSound.key_unique hs h hp hq heq)

/-- A record rewritten under its key keeps every law. -/
theorem State.putCall_keeps {k : Nat} {r r' : CallRecord} (hk : s.vote.calls.at? k = some r) (hkey : r'.callKey = r.callKey)
    (hr : r.Sound → r'.Sound) : Keeps A s (s.putCall k r') := by
  refine .of_calls Tab.sorted_insert fun hs h => h.insert hs (h.record hk).1 (hr (h.record hk).2) fun p hp hne heq => ?_
  exact hne (CallsSound.key_unique hs h hp (Tab.mem_of_at? hk) (heq.trans hkey))

theorem State.freeRecord_keeps (k : Nat) (s : State) : Keeps A s (s.freeRecord k) := .of_calls Tab.sorted_erase CallsSound.erase

/-- Closing a window as far as its forwarding: the record still in use (R96). -/
def State.windowForwarded (k : Nat) (r : CallRecord) (s : State) : State :=
  match r.best with
  | some b => ((s.putCall k { r with isOpen := false }).offerCore (.uplink (r.uplink b))).count (.global .votedBursts)
  | none => (s.putCall k { r with isOpen := false }).count (.global .burstsLost)

theorem State.closeWindow_eq (k : Nat) (r : CallRecord) (s : State) :
    s.closeWindow k r = if r.endSeen then (s.windowForwarded k r).freeRecord k else s.windowForwarded k r := by
  unfold State.closeWindow State.windowForwarded
  cases r.best <;> rfl

theorem State.windowForwarded_calls (k : Nat) (r : CallRecord) (s : State) :
    (s.windowForwarded k r).vote.calls = s.vote.calls.insert k { r with isOpen := false } := by
  unfold State.windowForwarded
  cases r.best with
  | none => rfl
  | some b => dsimp only; rw [State.count_vote, State.offerCore_vote]; rfl

theorem State.windowForwarded_keeps {k : Nat} {r : CallRecord} (hk : s.vote.calls.at? k = some r) :
    Keeps A s (s.windowForwarded k r) := by
  have hput : Keeps A s (s.putCall k { r with isOpen := false }) := State.putCall_keeps hk rfl id
  unfold State.windowForwarded
  split
  · exact .after (State.count_keeps ..) (.after (State.offerCore_keeps ..) hput)
  · exact .after (State.count_keeps ..) hput

theorem State.closeWindow_keeps {k : Nat} {r : CallRecord} (hk : s.vote.calls.at? k = some r) : Keeps A s (s.closeWindow k r) := by
  rw [State.closeWindow_eq]
  split
  · exact .after (State.freeRecord_keeps k _) (State.windowForwarded_keeps hk)
  · exact State.windowForwarded_keeps hk

/-- A window started keeps the laws if the writing of its record does (R97). -/
theorem State.startWindow_keeps {k : Nat} {r : CallRecord} (h : Keeps A s (u.putCall k r)) : Keeps A s (u.startWindow k r) := by
  unfold State.startWindow
  dsimp only
  split
  · exact .after (State.closeWindow_keeps (Tab.at?_insert_self ..)) h
  · exact h

/-! ### Copies -/

theorem State.passThrough_keeps (c : Copy) (a : Option Nat) (s : State) : Keeps A s (s.passThrough c a) := by
  cases a with
  | some q => exact .after (State.count_keeps ..) (State.offerCore_keeps ..)
  | none => exact .refl s

/-- The window a copy opens is sound, in a record of a call that is not a PING's. -/
theorem State.openWindow_sound {c : Copy} {a : Option Nat} (ha : ∀ q, a = some q → q ≤ 63) {r : CallRecord} (hr : r.callType ≠ .ping)
    (s : State) : (s.openWindow c a r).Sound := by
  refine ⟨hr, (by decide : 1 ≤ 255), fun b hb => ?_⟩
  obtain ⟨q, hq, rfl⟩ := Option.map_eq_some_iff.mp hb
  exact ha q hq

theorem freeCall_some {t : Tab CallRecord} {n a k : Nat} (h : freeCall t n a = some k) : k < a + n ∧ t.at? k = none := by
  induction n generalizing a with
  | zero => cases h
  | succ n ih =>
    rw [freeCall] at h
    split at h
    next hfree =>
      cases h
      exact ⟨by omega, by simpa using hfree⟩
    next =>
      obtain ⟨hlt, hnone⟩ := ih h
      exact ⟨by omega, hnone⟩

/-- The first copy of a call keeps the laws, from a state before it in which no other record has the call's key. -/
theorem State.newCall_keeps {c : Copy} {a : Option Nat} (ha : ∀ q, a = some q → q ≤ 63) (hc : c.callType ≠ .ping)
    (hu : Keeps A s u) (hput : ∀ k r, k < 48 → r.Sound → r.callKey = (c.radio, c.tag) → Keeps A s (u.putCall k r)) :
    Keeps A s (u.newCall c a) := by
  unfold State.newCall
  split
  next k hfree =>
    refine State.startWindow_keeps (hput k _ (by simpa using (freeCall_some hfree).1) (State.openWindow_sound ha ?_ u) rfl)
    exact hc
  next => exact .after (State.reportAlert_keeps ..) (.after (State.passThrough_keeps ..) hu)

theorem State.lateCopy_keeps {k : Nat} {r : CallRecord} (hk : s.vote.calls.at? k = some r) (c : Copy) :
    Keeps A s (s.lateCopy k c r) :=
  .after (State.count_keeps ..) (State.putCall_keeps hk rfl id)

/-- A copy entered into a record leaves it sound (R93). -/
theorem State.voteCopy_sound {c : Copy} {a : Option Nat} (ha : ∀ q, a = some q → q ≤ 63) {r : CallRecord} (hr : r.Sound) (s : State) :
    (s.voteCopy c a r).Sound := by
  refine ⟨hr.1, holdInc_le hr.2.1, fun b hb => ?_⟩
  rw [State.voteCopy_eq] at hb
  cases a with
  | none => exact hr.2.2 b hb
  | some q =>
    have hq := ha q rfl
    cases hbest : r.best with
    | none =>
      simp only [hbest, Option.some.injEq] at hb
      exact hb ▸ hq
    | some b' =>
      have hb' := hr.2.2 b' hbest
      simp only [hbest] at hb
      split at hb
      · exact Option.some.inj hb ▸ hq
      · exact Option.some.inj hb ▸ hb'

/-- The record of a call is in the table, and the call's key is its own. -/
theorem State.callOf_some {c : Copy} {k : Nat} {r : CallRecord} (h : s.callOf c.radio c.tag = some (k, r)) :
    (k, r) ∈ s.vote.calls ∧ r.callKey = (c.radio, c.tag) := by
  have hkey := List.find?_some h
  simp only [Bool.and_eq_true, beq_iff_eq] at hkey
  exact ⟨List.mem_of_find?_eq_some h, Prod.ext hkey.1 hkey.2⟩

/-- A copy ahead of its call keeps every law (R95). -/
theorem State.aheadCopy_keeps {c : Copy} {a : Option Nat} (ha : ∀ q, a = some q → q ≤ 63) (hc : c.callType ≠ .ping) {k : Nat}
    {r : CallRecord} (hk : s.vote.calls.at? k = some r) (hkey : r.callKey = (c.radio, c.tag)) : Keeps A s (s.aheadCopy k c a r) := by
  unfold State.aheadCopy
  split
  · dsimp only
    rw [State.closeWindow_eq]
    split
    next hend =>
      have hclosed : Keeps A s (s.windowForwarded k r) := State.windowForwarded_keeps hk
      have hat : (s.windowForwarded k r).vote.calls.at? k = some { r with isOpen := false } := by
        rw [State.windowForwarded_calls, Tab.at?_insert_self]
      refine State.newCall_keeps ha hc (.after (State.freeRecord_keeps ..) hclosed) fun j q hj hq hqkey => .after ?_ hclosed
      refine .of_calls (fun hs => Tab.sorted_insert (Tab.sorted_erase hs)) fun hs h => ?_
      refine CallsSound.insert (s := (s.windowForwarded k r).freeRecord k) (Tab.sorted_erase hs) (h.erase hs) hj hq
        fun p hp _ heq => ?_
      obtain ⟨hmem, hne⟩ := Tab.mem_erase.mp hp
      exact hne (CallsSound.key_unique hs h hmem (Tab.mem_of_at? hat) (heq.trans (hqkey.trans hkey.symm)))
    next hend =>
      have hat : (s.windowForwarded k r).vote.calls.at? k = some { r with isOpen := false } := by
        rw [State.windowForwarded_calls, Tab.at?_insert_self]
      refine State.startWindow_keeps (.after (State.putCall_keeps hat rfl fun hr => ?_) (State.windowForwarded_keeps hk))
      exact State.openWindow_sound ha hr.1 _
  · exact State.startWindow_keeps (State.putCall_keeps hk rfl fun hr => State.openWindow_sound ha hr.1 s)

/-- A copy voted on keeps every law. -/
theorem State.voteOn_keeps {c : Copy} {a : Option Nat} (ha : ∀ q, a = some q → q ≤ 63) (hc : c.callType ≠ .ping)
    (hs : s.vote.calls.sorted = true) : Keeps A s (s.voteOn c a) := by
  unfold State.voteOn
  split
  next hnone =>
    refine State.newCall_keeps ha hc (.refl s) fun k r hk hr hkey => ?_
    refine .of_calls Tab.sorted_insert fun hs h => h.insert hs hk hr fun p hp _ heq => ?_
    have hp' := List.find?_eq_none.mp hnone p hp
    obtain ⟨hradio, htag⟩ := Prod.mk.inj (heq.trans hkey)
    simp [hradio, htag] at hp'
  next k r hfound =>
    obtain ⟨hmem, hkey⟩ := State.callOf_some hfound
    have hk : s.vote.calls.at? k = some r := Tab.at?_of_mem hs hmem
    dsimp only
    split
    · split
      · exact State.putCall_keeps hk rfl fun hr => State.voteCopy_sound ha hr s
      · exact State.lateCopy_keeps hk c
    · split
      · exact State.aheadCopy_keeps ha hc hk hkey
      · exact State.lateCopy_keeps hk c

theorem State.newCall_pending (c : Copy) (a : Option Nat) (s : State) : (s.newCall c a).pending = s.pending := by
  unfold State.newCall
  split <;> simp

theorem State.newCall_now (c : Copy) (a : Option Nat) (s : State) : (s.newCall c a).now = s.now := by
  unfold State.newCall
  split <;> simp

theorem State.aheadCopy_pending (k : Nat) (c : Copy) (a : Option Nat) (r : CallRecord) (s : State) :
    (s.aheadCopy k c a r).pending = s.pending := by
  unfold State.aheadCopy
  split
  · dsimp only
    split <;> simp [State.newCall_pending]
  · simp

theorem State.aheadCopy_now (k : Nat) (c : Copy) (a : Option Nat) (r : CallRecord) (s : State) :
    (s.aheadCopy k c a r).now = s.now := by
  unfold State.aheadCopy
  split
  · dsimp only
    split <;> simp [State.newCall_now]
  · simp

/-- A vote leaves the command queue and the clock alone. -/
theorem State.voteOn_frame (c : Copy) (a : Option Nat) (s : State) :
    (s.voteOn c a).pending = s.pending ∧ (s.voteOn c a).now = s.now := by
  unfold State.voteOn
  split
  · exact ⟨State.newCall_pending .., State.newCall_now ..⟩
  · dsimp only
    split
    · split
      · exact ⟨rfl, rfl⟩
      · exact ⟨rfl, rfl⟩
    · split
      · exact ⟨State.aheadCopy_pending .., State.aheadCopy_now ..⟩
      · exact ⟨rfl, rfl⟩

/-- A report handed to the location engine keeps every law if its radio is valid (R89). -/
theorem State.handReport_keeps {r : Report} (hr : A → validRadio r.radio = true) :
    Keeps A s { s with loc.reports := s.loc.reports ++ [r] } := by
  refine .of_governed rfl id fun ha hi => ⟨hi.1, fun q hq => ?_, hi.2.2⟩
  rcases List.mem_append.mp hq with hq | hq
  · exact hi.2.1 q hq
  · rw [List.mem_singleton.mp hq]; exact hr ha

theorem State.takeCopy_keeps {c : Copy} (hradio : A → validRadio c.radio = true) : Keeps A s (s.takeCopy c) := by
  have hhand : Keeps A s { s with loc.reports := s.loc.reports ++ [c.report] } := State.handReport_keeps hradio
  have hle : ∀ q, (rawQuality c.quality).map (adjust (s.site c.site).cfg.offset) = some q → q ≤ 63 := fun _ => State.adjusted_le
  unfold State.takeCopy
  dsimp only
  split
  · exact hhand
  next hping =>
    split
    · exact .after (State.passThrough_keeps ..) hhand
    · exact .after (.of_tables (State.voteOn_frame ..).1 (State.voteOn_frame ..).2 fun hs => State.voteOn_keeps hle hping hs.2.1) hhand

end Sys2Proof.Machine

/-! The vote unit's commands keep every law. -/

namespace Sys2Proof.Machine

variable {A : Prop} {s t u : State}

/-! ### The vote unit's commands -/

theorem execReception_advances (s : State) : Advances s (execReception s) := by
  unfold execReception
  split
  · exact advances_self s
  next c rest hinbox =>
    refine (Keeps.taking (s := s) (A := validRadio c.radio = true) (t := { s with vote.inbox := rest }) rfl rfl ?_ ?_
      (State.takeCopy_keeps id)).advances
    · rintro ⟨hcopies, hi⟩
      exact ⟨fun q hq => hcopies q (hinbox ▸ List.mem_cons_of_mem c hq), hi⟩
    · exact fun hi => hi.1 c (hinbox ▸ List.mem_cons_self)

theorem execWindowExpiry_advances (record : Nat) (s : State) : Advances s (execWindowExpiry record s) := by
  unfold execWindowExpiry
  split
  next r hr =>
    split
    · exact (State.closeWindow_keeps hr).advances
    · exact advances_self s
  next => exact advances_self s

theorem execCallHangExpiry_advances (record : Nat) (s : State) : Advances s (execCallHangExpiry record s) := by
  unfold execCallHangExpiry
  split
  next r hr =>
    split
    · refine (Keeps.after (State.freeRecord_keeps record _) ?_).advances
      split
      · exact State.closeWindow_keeps hr
      · exact .refl s
    · exact advances_self s
  next => exact advances_self s

/-- The numbers of a table in rising order are different. -/
theorem Tab.keys_nodup {α : Type} {t : Tab α} (hs : t.sorted = true) : (t.map (·.1)).Nodup := by
  induction t with
  | nil => exact List.nodup_nil
  | cons p t ih =>
    obtain ⟨hlt, ht⟩ := Tab.sorted_cons.mp hs
    refine List.nodup_cons.mpr ⟨fun hmem => ?_, ih ht⟩
    obtain ⟨q, hq, heq⟩ := List.mem_map.mp hmem
    exact Nat.lt_irrefl _ (heq ▸ hlt q hq)

/-- Closing a window leaves the other records alone. -/
theorem State.closeWindow_calls_ne {j k : Nat} (hjk : j ≠ k) (r : CallRecord) (s : State) :
    (s.closeWindow k r).vote.calls.at? j = s.vote.calls.at? j := by
  have hforwarded : (s.windowForwarded k r).vote.calls.at? j = s.vote.calls.at? j := by
    rw [State.windowForwarded_calls, Tab.at?_insert_ne hjk]
  rw [State.closeWindow_eq]
  split
  · exact (Tab.at?_erase_ne hjk _).trans hforwarded
  · exact hforwarded

/-- Records at their places, their windows closed one after the other. -/
theorem State.closeAll_keeps {rs : List (Nat × CallRecord)} (hrs : (rs.map (·.1)).Nodup)
    (hat : ∀ p ∈ rs, s.vote.calls.at? p.1 = some p.2) : Keeps A s (s.closeAll rs) := by
  induction rs generalizing s with
  | nil => exact .refl s
  | cons p rs ih =>
    obtain ⟨hp, hrs⟩ := List.nodup_cons.mp hrs
    have hne : ∀ q ∈ rs, q.1 ≠ p.1 := fun q hq heq => hp (List.mem_map.mpr ⟨q, hq, heq⟩)
    rw [State.closeAll, List.foldl_cons]
    split
    · refine .after (ih hrs fun q hq => ?_) (State.closeWindow_keeps (hat p List.mem_cons_self))
      rw [State.closeWindow_calls_ne (hne q hq)]
      exact hat q (List.mem_cons_of_mem p hq)
    · exact ih hrs fun q hq => hat q (List.mem_cons_of_mem p hq)

theorem State.closeAll_pending (rs : List (Nat × CallRecord)) (s : State) : (s.closeAll rs).pending = s.pending := by
  induction rs generalizing s with
  | nil => rfl
  | cons p rs ih =>
    rw [State.closeAll, List.foldl_cons]
    refine (ih _).trans ?_
    split
    · exact State.closeWindow_pending ..
    · rfl

theorem State.closeAll_now (rs : List (Nat × CallRecord)) (s : State) : (s.closeAll rs).now = s.now := by
  induction rs generalizing s with
  | nil => rfl
  | cons p rs ih =>
    rw [State.closeAll, List.foldl_cons]
    refine (ih _).trans ?_
    split
    · exact State.closeWindow_now ..
    · rfl

theorem execStopVoteClose_advances (s : State) : Advances s (execStopVoteClose s) := by
  unfold execStopVoteClose
  split
  · refine Keeps.advances (.of_tables (State.closeAll_pending ..) (State.closeAll_now ..) fun hs => ?_)
    refine .after (State.closeAll_keeps (Tab.keys_nodup hs.2.1) fun p hp => Tab.at?_of_mem hs.2.1 hp) ?_
    exact .aside rfl rfl rfl rfl rfl
  · exact advances_self s

end Sys2Proof.Machine

/-! The site monitor keeps every law. -/

namespace Sys2Proof.Machine

variable {A : Prop} {s t u : State}

/-! ### Site records -/

/-- A site that differs from the default is listed, so its number is one the part has. -/
theorem ConfigurationInRange.validSite_of_ne_default (h : ConfigurationInRange s) {x : Nat} (hne : s.site x ≠ SiteRecord.default) :
    validSite x = true :=
  (h.1 _ (Tab.mem_of_atD hne)).1

/-- A site record replaced: every law is kept if the laws of the site records are and, under LOCK, its configured fields. -/
theorem State.putSite_keeps {x : Nat} {r : SiteRecord}
    (hconfig : ConfigurationInRange s → r ≠ SiteRecord.default → validSite x = true ∧ r.cfg.inRange)
    (hfigures : ConfigurationInRange s → FiguresInRange s → r.run ≤ 6 ∧ r.interval ≤ 65535)
    (hlock : s.mgmt.lock = true → s.mgmt.batch = none → r.cfg = (s.site x).cfg) : Keeps A s (s.putSite x r) where
  pending := rfl
  now := rfl
  tables hs := ⟨Tab.canonical_put hs.1, hs.2⟩
  config hs hc := by
    obtain ⟨hsites, hrest⟩ := hc
    refine ⟨fun p hp => ?_, hrest⟩
    have hne := (Tab.canonical_iff.mp (Tab.canonical_put hs.1)).2 p hp
    rcases Tab.mem_put hp with rfl | hp
    · exact hconfig ⟨hsites, hrest⟩ hne
    · exact hsites p hp
  entries _ _ _ he := he
  counts _ _ _ _ hn := hn
  queues _ _ hq := hq
  control _ hc hq := by
    obtain ⟨hepoch, hlock, hcalls, hfig, hdis⟩ := hq
    obtain ⟨hcredits, hpointer, hrequests, hsymbols, hsites, hbatch⟩ := hfig
    refine ⟨hepoch, hlock, hcalls, ⟨hcredits, hpointer, hrequests, hsymbols, fun y => ?_, hbatch⟩, hdis⟩
    rw [State.site_putSite]
    split
    · exact hfigures hc ⟨hcredits, hpointer, hrequests, hsymbols, hsites, hbatch⟩
    · exact hsites y
  locked _ hl hb := by
    refine ⟨⟨hl, fun y => ?_, rfl, rfl, rfl, fun _ _ => rfl⟩, hb⟩
    rw [State.site_putSite]
    split
    next h => exact h ▸ hlock hl hb
    next => rfl

/-- What a site monitor keeps of a site replaced, its configured fields left alone. -/
theorem State.putSite_keeps_of_cfg {x : Nat} {r : SiteRecord} (hcfg : r.cfg = (s.site x).cfg)
    (hvalid : ConfigurationInRange s → r ≠ SiteRecord.default → validSite x = true)
    (hfigures : ConfigurationInRange s → FiguresInRange s → r.run ≤ 6 ∧ r.interval ≤ 65535) : Keeps A s (s.putSite x r) :=
  State.putSite_keeps (fun hc hne => ⟨hvalid hc hne, hcfg ▸ hc.site_inRange x⟩) hfigures fun _ _ => hcfg

/-- The recovery run and the interval of a site keep their ranges (R69). -/
theorem FiguresInRange.site (h : FiguresInRange s) (x : Nat) : (s.site x).run ≤ 6 ∧ (s.site x).interval ≤ 65535 :=
  h.2.2.2.2.1 x

theorem State.putCredits_keeps {x n : Nat} (hn : ConfigurationInRange s → n ≤ 255) : Keeps A s (s.putCredits x n) := by
  refine .of_queues (fun hs => ?_) (fun hc hf => ⟨fun y => ?_, hf.2.1⟩) (fun _ hheld hle => ⟨hheld, hle⟩) fun _ hq => hq
  · obtain ⟨-, -, -, -, -, -, -, -, -, hcontrol, hvoice, hcredits, -⟩ := hs
    exact ⟨hcontrol, hvoice, Tab.canonical_put hcredits⟩
  · rw [Tab.atD_put]
    split
    · exact hn hc
    · exact hf.1 y

theorem State.returnCredits_keeps (x n : Nat) (s : State) : Keeps A s (s.returnCredits x n) :=
  State.putCredits_keeps fun _ => Nat.min_le_left ..

theorem State.reportUp_keeps (x : Nat) (s : State) : Keeps A s (s.reportUp x) := .aside rfl rfl rfl rfl rfl

theorem State.reportLeftReach_keeps (x : Nat) (s : State) : Keeps A s (s.reportLeftReach x) := .aside rfl rfl rfl rfl rfl

theorem State.orderFlush_keeps (x : Nat) (s : State) : Keeps A s (s.orderFlush x) := .aside rfl rfl rfl rfl rfl

theorem State.reportEntries_keeps (x : Nat) (news : SiteNews) (s : State) : Keeps A s (s.reportEntries x news) :=
  .aside rfl rfl rfl rfl rfl

/-! ### Heartbeats -/

/-- Step 5 of a heartbeat keeps every law, at a site whose state and configured fields are those before the heartbeat. -/
theorem State.workState_keeps {x : Nat} {r0 : SiteRecord} (hcfg : (s.site x).cfg = r0.cfg) (hstate : (s.site x).state = r0.state) :
    Keeps A s (s.workState x r0) := by
  have hvalid : (s.site x).state ≠ .off → ConfigurationInRange s → ∀ r : SiteRecord, r ≠ SiteRecord.default → validSite x = true :=
    fun hne hc _ _ => hc.validSite_of_ne_off hne
  have hwork : (s.site x).state ≠ .off →
      Keeps A s (if r0.cfg.recoveryCount ≤ r0.runAfter s.now then
        (((s.putSite x { s.site x with state := .up, run := 0 }).putCredits x r0.cfg.initialCredit).reportUp x).count
          (.site x .recoveries)
      else s.putSite x { s.site x with run := r0.runAfter s.now }) := by
    intro hne
    split
    · refine .after (State.count_keeps ..) (.after (State.reportUp_keeps ..) (.after (State.putCredits_keeps fun hc => ?_)
        (State.putSite_keeps_of_cfg rfl (fun hc => hvalid hne hc _) fun _ hf => ⟨Nat.zero_le 6, (hf.site x).2⟩)))
      have hrange := hc.site_inRange x
      rw [State.site_putSite, if_pos rfl] at hrange
      obtain ⟨-, -, -, -, -, -, -, -, -, -, hcredit, -⟩ := hrange
      exact hcfg ▸ hcredit
    next hrun =>
      refine State.putSite_keeps_of_cfg rfl (fun hc => hvalid hne hc _) fun hc hf => ⟨?_, (hf.site x).2⟩
      obtain ⟨-, -, -, -, -, -, -, -, hcount, -⟩ := hc.site_inRange x
      rw [hcfg] at hcount
      change r0.runAfter s.now ≤ 6
      omega
  unfold State.workState
  split
  next hw => exact hwork (by rw [hstate, hw]; decide)
  next hw => exact hwork (by rw [hstate, hw]; decide)
  all_goals exact .refl s

theorem SiteRecord.beat_interval_le {r : SiteRecord} (h : r.interval ≤ 65535) (now : Nat) (alarm : Bool) :
    (r.beat now alarm).interval ≤ 65535 := by
  unfold SiteRecord.beat
  dsimp only
  split
  · exact Nat.min_le_right ..
  · exact h

theorem State.takeHeartbeat_keeps (h : Heartbeat) (s : State) : Keeps A s (s.takeHeartbeat h) := by
  unfold State.takeHeartbeat
  dsimp only
  split
  · exact s.count_keeps _
  next hne =>
    refine .after (State.reportChange_keeps ..) (.after (State.count_keeps ..) (.after (State.workState_keeps ?_ ?_)
      (.after (State.returnCredits_keeps ..) (State.putSite_keeps_of_cfg rfl (fun hc _ => hc.validSite_of_ne_off hne)
        fun _ hf => ⟨(hf.site _).1, SiteRecord.beat_interval_le (hf.site _).2 ..⟩))))
    · rw [State.site_congr (State.returnCredits_monitor ..), State.site_putSite, if_pos rfl]
      rfl
    · rw [State.site_congr (State.returnCredits_monitor ..), State.site_putSite, if_pos rfl]
      rfl

theorem execHeartbeat_advances (s : State) : Advances s (execHeartbeat s) := by
  unfold execHeartbeat
  split
  · exact advances_self s
  · exact Keeps.advances (.after (State.takeHeartbeat_keeps ..) (.aside rfl rfl rfl rfl rfl))

/-! ### Stalls -/

theorem execStallExpiry_advances (site : Nat) (s : State) : Advances s (execStallExpiry site s) := by
  unfold execStallExpiry
  split
  next h =>
    have hne : (s.site site).state ≠ .off := by rw [h.1]; decide
    exact Keeps.advances (.after (State.reportChange_keeps ..) (.after (State.orderFlush_keeps ..)
      (.after (State.reportLeftReach_keeps ..) (.after (State.reportEntries_keeps ..) (.after (State.count_keeps ..)
        (State.putSite_keeps_of_cfg rfl (fun hc _ => hc.validSite_of_ne_off hne)
          fun _ hf => ⟨Nat.zero_le 6, (hf.site site).2⟩))))))
  next => exact advances_self s

/-! ### Admin actions -/

theorem State.enableSite_keeps {x : Nat} (hx : validSite x = true) : Keeps A s (s.enableSite x) := by
  unfold State.enableSite
  dsimp only
  split
  · exact State.putSite_keeps_of_cfg rfl (fun _ _ => hx) fun _ _ => ⟨Nat.zero_le 6, Nat.zero_le _⟩
  · exact State.putSite_keeps_of_cfg rfl (fun _ _ => hx) fun _ hf => ⟨Nat.zero_le 6, (hf.site x).2⟩
  all_goals exact .refl s

theorem State.barSite_keeps {x : Nat} (hx : validSite x = true) : Keeps A s (s.barSite x) := by
  have hbarred : Keeps A s (s.putSite x { s.site x with state := .barred, run := 0 }) :=
    State.putSite_keeps_of_cfg rfl (fun _ _ => hx) fun _ hf => ⟨Nat.zero_le 6, (hf.site x).2⟩
  unfold State.barSite
  dsimp only
  split
  · exact .after (State.orderFlush_keeps ..) (.after (State.reportLeftReach_keeps ..) (.after (State.reportEntries_keeps ..) hbarred))
  · exact .after (State.orderFlush_keeps ..) hbarred
  · exact .after (State.orderFlush_keeps ..) hbarred
  all_goals exact .refl s

theorem State.removeSite_keeps {x : Nat} (hx : validSite x = true) : Keeps A s (s.removeSite x) := by
  have hremoved : Keeps A s (((s.putSite x { s.site x with
      state := .off, lastHeartbeat := none, interval := 0, run := 0, alarm := false }).putCredits x 0 |>.orderFlush x).reportEntries x
        .removed) :=
    .after (State.reportEntries_keeps ..) (.after (State.orderFlush_keeps ..) (.after (State.putCredits_keeps fun _ => Nat.zero_le _)
      (State.putSite_keeps_of_cfg rfl (fun _ _ => hx) fun _ _ => ⟨Nat.zero_le 6, Nat.zero_le _⟩)))
  unfold State.removeSite
  dsimp only
  split
  · exact .refl s
  · refine .after (State.reportChange_keeps ..) ?_
    split
    · exact .after (State.reportLeftReach_keeps ..) hremoved
    · exact hremoved

theorem State.admin_keeps {x : Nat} (hx : validSite x = true) (a : AdminAction) : Keeps A s (s.admin x a) := by
  cases a with
  | keep => exact .refl s
  | enable => exact State.enableSite_keeps hx
  | bar => exact State.barSite_keeps hx
  | remove => exact State.removeSite_keeps hx

/-- An admin action of a site the part has advances. -/
theorem admin_advances (site : Nat) (a : AdminAction) (s : State) :
    Advances s (if validSite site then .next (s.admin site a) else .next s) := by
  split
  next hx => exact (State.admin_keeps hx a).advances
  next => exact advances_self s

end Sys2Proof.Machine

/-! The egress scheduler and the reach unit keep every law. -/

namespace Sys2Proof.Machine

variable {A : Prop} {s t u : State}

/-! ### The egress scheduler -/

theorem State.takeEgressReport_keeps (r : EgressReport) (s : State) : Keeps A s (s.takeEgressReport r) :=
  .aside rfl rfl rfl rfl rfl

theorem execSiteUpEgress_advances (site : Nat) (s : State) : Advances s (execSiteUpEgress site s) := by
  unfold execSiteUpEgress
  split
  · split
    · exact (State.takeEgressReport_keeps ..).advances
    · exact advances_self s
  · exact advances_self s

theorem State.flushLanes_keeps (x : Nat) (s : State) : Keeps A s (s.flushLanes x) := by
  unfold State.flushLanes
  refine .after (State.countBy_keeps ..) (.of_queues (fun hs => ?_) (fun _ hf => ⟨hf.1, hf.2.1⟩) (fun hs hheld hle => ?_) fun _ hq => ?_)
  · obtain ⟨-, -, -, -, -, -, -, -, -, hcontrol, hvoice, hcredits, -⟩ := hs
    exact ⟨Tab.canonical_put hcontrol, Tab.canonical_put hvoice, hcredits⟩
  · obtain ⟨-, -, -, -, -, -, -, -, -, hcontrol, hvoice, -, -⟩ := hs
    have hc := heldFrames_put hcontrol x []
    have hv := heldFrames_put hvoice x []
    change _ + (s.controlLane x).length = _ at hc
    change _ + (s.voiceLane x).length = _ at hv
    rw [List.length_nil] at hc hv
    omega
  · exact ⟨length_atD_put_le hq.1 (Nat.zero_le _), length_atD_put_le hq.2.1 (Nat.zero_le _), hq.2.2⟩

theorem execFlush_advances (site : Nat) (s : State) : Advances s (execFlush site s) := by
  unfold execFlush
  split
  · split
    · exact Keeps.advances (.after (State.flushLanes_keeps ..) (State.takeEgressReport_keeps ..))
    · exact advances_self s
  · exact advances_self s

theorem mem_sitesAfter {pointer x : Nat} (h : x ∈ sitesAfter pointer) : 1 ≤ x ∧ x ≤ 40 := by
  obtain ⟨i, -, rfl⟩ := List.mem_map.mp h
  have hlt : (pointer + i) % Config.siteCount < Config.siteCount := Nat.mod_lt _ (by decide)
  have hcount : Config.siteCount = 40 := rfl
  omega

/-- A turn taken at a site the part has keeps every law. -/
theorem State.takeTurn_keeps {x : Nat} (hx : 1 ≤ x ∧ x ≤ 40) : Keeps A s (s.takeTurn x) := by
  have hsized : s.turnSize x = if (s.controlLane x).length = 0 then s.voiceTurn x else 1 := rfl
  have hvoiceTurn : s.voiceTurn x ≤ (s.voiceLane x).length := Nat.min_le_right ..
  unfold State.takeTurn
  refine .after (State.countBy_keeps ..) (.after (t := { s with
      egress.control := _, egress.voice := _, egress.poolUsed := _, egress.credits := _, egress.pointer := x })
    (.aside rfl rfl rfl rfl rfl)
    (.of_queues (fun hs => ?_) (fun _ hf => ⟨fun y => ?_, hx⟩) (fun hs hheld hle => ?_) fun _ hq => ⟨?_, ?_, hq.2.2⟩))
  · obtain ⟨-, -, -, -, -, -, -, -, -, hcontrol, hvoice, hcredits, -⟩ := hs
    refine ⟨?_, ?_, Tab.canonical_put hcredits⟩
    · split
      · exact Tab.canonical_put hcontrol
      · exact hcontrol
    · split
      · exact hvoice
      · exact Tab.canonical_put hvoice
  · have hold := hf.1
    rw [Tab.atD_put]
    split
    · exact Nat.le_trans (Nat.sub_le ..) (hold x)
    · exact hold y
  · obtain ⟨-, -, -, -, -, -, -, -, -, hcontrol, hvoice, -, -⟩ := hs
    have hc := heldFrames_put hcontrol x ((s.controlLane x).drop 1)
    have hv := heldFrames_put hvoice x ((s.voiceLane x).drop (s.turnSize x))
    change _ + (s.controlLane x).length = _ at hc
    change _ + (s.voiceLane x).length = _ at hv
    rw [List.length_drop] at hc hv
    split
    next hne =>
      rw [if_neg hne] at hsized
      rw [hsized]
      omega
    next hempty =>
      rw [if_pos (by omega)] at hsized
      rw [hsized] at hv ⊢
      omega
  · split
    · exact length_atD_put_le hq.1 (Nat.le_trans (List.length_drop ▸ Nat.sub_le ..) (hq.1 x))
    · exact hq.1
  · split
    · exact hq.2.1
    · exact length_atD_put_le hq.2.1 (Nat.le_trans (List.length_drop ▸ Nat.sub_le ..) (hq.2.1 x))

theorem execSiteTurn_advances (s : State) : Advances s (execSiteTurn s) := by
  unfold execSiteTurn
  split
  · split
    next x hfound => exact (State.takeTurn_keeps (mem_sitesAfter (List.mem_of_find?_eq_some hfound))).advances
    next => exact advances_self s
  · exact advances_self s

theorem execSiteTurnSent_advances (s : State) : Advances s (execSiteTurnSent s) :=
  Keeps.advances (.aside rfl rfl rfl rfl rfl)

theorem execCoreTake_advances (s : State) : Advances s (execCoreTake s) := by
  unfold execCoreTake
  split
  · split
    next f rest hcore =>
      refine Keeps.advances (.after (State.count_keeps ..) (.after
        (t := { s with egress.core := rest, egress.poolUsed := s.egress.poolUsed - 1 }) (.aside rfl rfl rfl rfl rfl)
        (.of_queues (fun hs => ?_) (fun _ hf => ⟨hf.1, hf.2.1⟩) (fun _ hheld hle => ?_) fun _ hq => ⟨hq.1, hq.2.1, ?_⟩)))
      · obtain ⟨-, -, -, -, -, -, -, -, -, hcontrol, hvoice, hcredits, -⟩ := hs
        exact ⟨hcontrol, hvoice, hcredits⟩
      · rw [hcore, List.length_cons] at hheld
        omega
      · have hlen := hq.2.2
        rw [hcore, List.length_cons] at hlen
        omega
    next => exact advances_self s
  · exact advances_self s

theorem execCoreFrameSent_advances (s : State) : Advances s (execCoreFrameSent s) :=
  Keeps.advances (.aside rfl rfl rfl rfl rfl)

/-! ### The reach unit -/

theorem State.offerCopies_keeps (d : Downlink) (xs : List Nat) (s : State) : Keeps A s (s.offerCopies d xs) := by
  induction xs generalizing s with
  | nil => exact .refl s
  | cons x xs ih =>
    have hoffer : Keeps A s (s.offerVoice x { site := x, burst := d }).1 := s.offerVoice_keeps x _
    unfold State.offerCopies
    split
    next heq => rw [heq] at hoffer; exact .after (ih _) (.after (State.count_keeps ..) hoffer)
    next heq => rw [heq] at hoffer; exact .after (ih _) hoffer

theorem State.takeDownlink_keeps (d : Downlink) (s : State) : Keeps A s (s.takeDownlink d) := by
  unfold State.takeDownlink
  split
  · exact s.count_keeps _
  · have hflooded : ∀ b : Bool, Keeps A s (if b then s.count (.global .individualFloods) else s) := fun b => by
      split
      · exact s.count_keeps _
      · exact .refl s
    dsimp only
    split
    · exact .after (State.count_keeps ..) (hflooded _)
    · exact .after (State.offerCopies_keeps ..) (.after (State.count_keeps ..) (hflooded _))

theorem execDownlink_advances (s : State) : Advances s (execDownlink s) := by
  unfold execDownlink
  split
  · exact Keeps.advances (.after (State.takeDownlink_keeps ..) (.aside rfl rfl rfl rfl rfl))
  · exact advances_self s

theorem State.takeRelay_keeps (r : Relay) (s : State) : Keeps A s (s.takeRelay r) := by
  unfold State.takeRelay
  split
  · exact s.count_keeps _
  · exact s.offerControl_keeps ..

theorem execRelay_advances (s : State) : Advances s (execRelay s) := by
  unfold execRelay
  split
  · exact Keeps.advances (.after (State.takeRelay_keeps ..) (.aside rfl rfl rfl rfl rfl))
  · exact advances_self s

theorem execSiteChangeReach_advances (s : State) : Advances s (execSiteChangeReach s) :=
  Keeps.advances (.aside rfl rfl rfl rfl rfl)

end Sys2Proof.Machine

/-! The changes the management unit makes of its own state, and of alert flags, keep every law. -/

namespace Sys2Proof.Machine

variable {A : Prop} {s t u : State}

/-! ### The request queue, LOCK and the batch -/

/-- The request queue changed: every law is kept if it does not pass its capacity. -/
theorem Keeps.of_requests {rs : List Request} (h : s.mgmt.requests.length ≤ 4 → rs.length ≤ 4) :
    Keeps A s { s with mgmt.requests := rs } where
  pending := rfl
  now := rfl
  tables hs := hs
  config _ hc := hc
  entries _ _ _ he := he
  counts _ _ _ _ hn := hn
  queues _ _ hq := hq
  control _ _ hq := by
    obtain ⟨hepoch, hlock, hcalls, ⟨hcredits, hpointer, hrequests, hrest⟩, hdis⟩ := hq
    exact ⟨hepoch, hlock, hcalls, ⟨hcredits, hpointer, h hrequests, hrest⟩, hdis⟩
  locked _ hl hb := ⟨⟨hl, fun _ => rfl, rfl, rfl, rfl, fun _ _ => rfl⟩, hb⟩

/-- A batch in progress as R146 describes one. -/
def Batch.Sound (b : Batch) : Prop := b.rest ≠ [] ∧ b.applied + b.rest.length = b.items ∧ b.items ≤ 16

/-- LOCK and the batch changed: every law is kept if theirs are. -/
theorem Keeps.of_guard {lock : Bool} {batch : Option Batch} (hlaw : LockLaw s → lock = true → batch = none)
    (hsound : FiguresInRange s → ∀ b, batch = some b → b.Sound)
    (hlocked : s.mgmt.lock = true → s.mgmt.batch = none → lock = true ∧ batch = none) :
    Keeps A s { s with mgmt.lock := lock, mgmt.batch := batch } where
  pending := rfl
  now := rfl
  tables hs := hs
  config _ hc := hc
  entries _ _ _ he := he
  counts _ _ _ _ hn := hn
  queues _ _ hq := hq
  control _ _ hq := by
    obtain ⟨hepoch, hlock, hcalls, hfig, hdis⟩ := hq
    have hbatch := hsound hfig
    obtain ⟨hcredits, hpointer, hrequests, hsymbols, hsites, -⟩ := hfig
    exact ⟨hepoch, hlaw hlock, hcalls, ⟨hcredits, hpointer, hrequests, hsymbols, hsites, hbatch⟩, hdis⟩
  locked _ hl hb := ⟨⟨(hlocked hl hb).1, fun _ => rfl, rfl, rfl, rfl, fun _ _ => rfl⟩, (hlocked hl hb).2⟩

/-- What the checks of R142 let through. -/
theorem State.passed_of_precheck {r : Request} (h : s.precheck r = none) :
    r.lengthOk = true ∧ (s.mgmt.batch.isSome && r.heldByBatch) = false ∧ r.codeOk = true ∧
      (s.mgmt.lock && r.heldByLock) = false := by
  unfold State.precheck at h
  split at h
  · cases h
  split at h
  · cases h
  split at h
  · cases h
  split at h
  · cases h
  simp_all

/-- A request that a batch in progress holds off passes the checks only if there is none. -/
theorem State.batch_none_of_precheck {r : Request} (h : s.precheck r = none) (hheld : r.heldByBatch = true) :
    s.mgmt.batch = none := by
  simpa [hheld] using (State.passed_of_precheck h).2.1

/-- A request that LOCK refuses passes the checks only with LOCK clear. -/
theorem State.lock_clear_of_precheck {r : Request} (h : s.precheck r = none) (hheld : r.heldByLock = true) :
    s.mgmt.lock = false := by
  simpa [hheld] using (State.passed_of_precheck h).2.2.2

/-- A request completed keeps every law if its effect does, from a state in which it passes the checks. -/
theorem State.complete_keeps {isFor : Request → Bool} {effect : Request → State → State × Option Answer}
    (h : ∀ r (t : State), isFor r = true → t.precheck r = none → Keeps A t (effect r t).1) (s : State) :
    Keeps A s (s.complete isFor effect) := by
  unfold State.complete
  split
  · exact .refl s
  next r rest hrequests =>
    split
    next hfor =>
      have hpop : Keeps A s { s with mgmt.requests := rest } := .of_requests fun hlen => by
        rw [hrequests, List.length_cons] at hlen
        omega
      dsimp only
      split
      · exact hpop.trans (State.respond_keeps ..)
      next hcheck =>
        have heffect := h r _ hfor hcheck
        split
        next heq => rw [heq] at heffect; exact .after (State.respond_keeps ..) (.after heffect hpop)
        next heq => rw [heq] at heffect; exact .after heffect hpop
    next => exact .refl s

theorem complete_advances {isFor : Request → Bool} {effect : Request → State → State × Option Answer}
    (h : ∀ r (t : State), isFor r = true → t.precheck r = none → Keeps True t (effect r t).1) (s : State) :
    Advances s (.next (s.complete isFor effect)) :=
  (State.complete_keeps h s).advances

/-- The kind of a request for a row. -/
theorem Request.kind_of_isFor {r : Request} {k : RequestKind} {code : Nat} (h : r.isFor k code = true) : r.kind = k := by
  simp only [Request.isFor, Bool.and_eq_true, decide_eq_true_eq] at h
  exact h.1

/-- The code of a request for a row, once it has passed the checks. -/
theorem Request.code_of_isFor {r : Request} {k : RequestKind} {code : Nat} (h : r.isFor k code = true) (hcode : r.codeOk = true) :
    r.code = some code := by
  simp only [Request.isFor, hcode, Bool.and_eq_true, Bool.not_true, Bool.or_false, beq_iff_eq] at h
  exact h.2

theorem reading_fst {α : Type} (parse : List Byte → Option α) (answer : α → State → Answer) (r : Request) (s : State) :
    (reading parse answer r s).1 = s := by
  unfold reading
  split <;> rfl

theorem changing_keeps {α : Type} {parse : List Byte → Option α} {effect : α → State → State × Result}
    (h : ∀ a, Keeps A s (effect a s).1) (r : Request) : Keeps A s (changing parse effect r s).1 := by
  unfold changing
  split
  · exact h _
  · exact .refl s

theorem execMgmtRequest_advances (s : State) : Advances s (execMgmtRequest s) := by
  unfold execMgmtRequest
  split
  · exact advances_self s
  next r rest hinbox =>
    split
    next hroom =>
      refine Keeps.advances (.after (t := { s with mgmt.inbox := rest }) (.of_requests fun _ => ?_) (.aside rfl rfl rfl rfl rfl))
      rw [List.length_append, List.length_singleton]
      exact hroom
    next => exact Keeps.advances (.after (State.count_keeps ..) (.aside rfl rfl rfl rfl rfl))

/-- A request that only reads. -/
theorem reading_advances {α : Type} (isFor : Request → Bool) (parse : List Byte → Option α) (answer : α → State → Answer)
    (s : State) : Advances s (.next (s.complete isFor (reading parse answer))) :=
  complete_advances (fun r t _ _ => by rw [reading_fst]; exact .refl t) s

theorem execIdentify_advances (s : State) : Advances s (execIdentify s) := complete_advances (fun _ t _ _ => .refl t) s

theorem execStatus_advances (s : State) : Advances s (execStatus s) := complete_advances (fun _ t _ _ => .refl t) s

/-! ### CONTROL, counters and radio actions -/

theorem State.startRun_keeps (s : State) : Keeps A s s.startRun := by
  unfold State.startRun
  split
  · exact .refl s
  · exact .of_clock (fun _ => ⟨⟨fun _ => rfl, fun _ => rfl⟩, nofun⟩) fun he => he.2.2

theorem State.stopRun_keeps (s : State) : Keeps A s s.stopRun := by
  unfold State.stopRun
  split
  · exact .refl s
  · exact .after (t := { s with mgmt.run := .load, loc.boundary := none, loc.visits := [] }) (.aside rfl rfl rfl rfl rfl)
      (.of_clock (fun _ => ⟨⟨nofun, nofun⟩, fun _ => rfl⟩) nofun)

theorem State.lockNow_keeps (hb : s.mgmt.batch = none) : Keeps A s { s with mgmt.lock := true } :=
  .of_guard (fun _ _ => hb) (fun hf => hf.2.2.2.2.2) fun _ _ => ⟨rfl, hb⟩

theorem execStart_advances (s : State) : Advances s (execStart s) := complete_advances (fun _ t _ _ => t.startRun_keeps) s

theorem execStop_advances (s : State) : Advances s (execStop s) := complete_advances (fun _ t _ _ => t.stopRun_keeps) s

theorem execLock_advances (s : State) : Advances s (execLock s) :=
  complete_advances (fun r _ hfor hcheck => State.lockNow_keeps
    (State.batch_none_of_precheck hcheck (by rw [Request.heldByBatch, Request.kind_of_isFor hfor]))) s

theorem State.setFlood_keeps (on : Bool) (s : State) : Keeps A s (s.setFlood on) := .aside rfl rfl rfl rfl rfl

theorem execFloodOn_advances (s : State) : Advances s (execFloodOn s) := complete_advances (fun _ t _ _ => t.setFlood_keeps true) s

theorem execFloodOff_advances (s : State) : Advances s (execFloodOff s) :=
  complete_advances (fun _ t _ _ => t.setFlood_keeps false) s

theorem execClearCounters_advances (s : State) : Advances s (execClearCounters s) :=
  complete_advances (fun _ t _ _ => .of_governed (s := t) rfl (fun _ => rfl) fun _ hi => hi) s

theorem acting_keeps {f : RadioId → Nat → State → State × Result} {p : RadioId × Nat} (h : Keeps A s (f p.1 p.2 s).1) :
    Keeps A s (acting f p s).1 :=
  h.trans (State.reportConditions_keeps s _)

theorem execForceRoam_advances (s : State) : Advances s (execForceRoam s) :=
  complete_advances (fun r t _ _ => changing_keeps (fun p => acting_keeps (t.forceRoam_keeps p.1 p.2)) r) s

theorem execEvict_advances (s : State) : Advances s (execEvict s) :=
  complete_advances (fun r t _ _ => changing_keeps (fun p => acting_keeps (t.evict_keeps p.1)) r) s

theorem execClearEmergency_advances (s : State) : Advances s (execClearEmergency s) :=
  complete_advances (fun r t _ _ => changing_keeps (fun p => acting_keeps (t.clearEmergency_keeps p.1)) r) s

/-! ### Alert flags -/

/-- The alert flags changed: every law is kept if no flag of a disabled class is set. -/
theorem Keeps.of_flags {conditions flags enables : BitVec 8} {causes : ResetCauses}
    (h : DisabledFlagsClear s → flags &&& ~~~ enables = 0) :
    Keeps A s
      { s with mgmt.conditions := conditions, mgmt.flags := flags, mgmt.enables := enables, mgmt.causes := causes } where
  pending := rfl
  now := rfl
  tables hs := hs
  config _ hc := hc
  entries _ _ _ he := he
  counts _ _ _ _ hn := hn
  queues _ _ hq := hq
  control _ _ hq := by
    obtain ⟨hepoch, hlock, hcalls, hfig, hdis⟩ := hq
    exact ⟨hepoch, hlock, hcalls, hfig, h hdis⟩
  locked _ hl hb := ⟨⟨hl, fun _ => rfl, rfl, rfl, rfl, fun _ _ => rfl⟩, hb⟩

theorem or_clear {f g e : BitVec 8} (hf : f &&& ~~~ e = 0) (hg : g &&& ~~~ e = 0) : (f ||| g) &&& ~~~ e = 0 := by
  ext i hi
  have hfi := congrArg (fun b => b[i]) hf
  have hgi := congrArg (fun b => b[i]) hg
  simp only [BitVec.getElem_and, BitVec.getElem_not, BitVec.getElem_or, BitVec.ofNat_eq_ofNat, BitVec.getElem_zero] at hfi hgi ⊢
  rw [Bool.and_or_distrib_right, hfi, hgi]
  rfl

theorem and_clear {f e : BitVec 8} (hf : f &&& ~~~ e = 0) (g : BitVec 8) : (f &&& g) &&& ~~~ e = 0 := by
  rw [BitVec.and_assoc, BitVec.and_comm g, ← BitVec.and_assoc, hf]
  exact BitVec.zero_and

theorem self_clear (e g : BitVec 8) : (e &&& g) &&& ~~~ e = 0 := and_clear (BitVec.and_not_self e) g

/-- An enabled class's bit is no disabled one. -/
theorem alertBit_clear {e : BitVec 8} {c : AlertClass} (h : hasClass e c = true) : alertBit c &&& ~~~ e = 0 := by
  revert e
  cases c <;> decide

theorem setClass_clear {f e : BitVec 8} (hf : f &&& ~~~ e = 0) {c : AlertClass} {v : Bool} (hv : v = true → hasClass e c = true) :
    setClass f c v &&& ~~~ e = 0 := by
  unfold setClass
  split
  next h => exact or_clear hf (alertBit_clear (hv h))
  next => exact and_clear hf _

theorem followStall_clear {f e : BitVec 8} (hf : f &&& ~~~ e = 0) (anyStall : Bool) : followStall f e anyStall &&& ~~~ e = 0 :=
  setClass_clear hf fun h => (Bool.and_eq_true_iff.mp h).2

theorem flagsAfterReport_clear {f e : BitVec 8} (hf : f &&& ~~~ e = 0) (anyStall : Bool) (r : AlertReport) :
    flagsAfterReport f e anyStall r &&& ~~~ e = 0 := by
  unfold flagsAfterReport
  split
  · exact followStall_clear hf anyStall
  · split
    next h => exact or_clear hf (alertBit_clear (Bool.and_eq_true_iff.mp h).2)
    next => exact hf

theorem flagsAfterEnables_clear (f old new conditions : BitVec 8) : flagsAfterEnables f old new conditions &&& ~~~ new = 0 := by
  unfold flagsAfterEnables
  refine or_clear ?_ ?_
  · rw [BitVec.and_comm f]
    exact self_clear new f
  · rw [BitVec.and_assoc new, BitVec.and_assoc new]
    exact self_clear new _

theorem State.raiseFrom_keeps (before : BitVec 8) (s : State) : Keeps A s (s.raiseFrom before) := by
  unfold State.raiseFrom
  dsimp only
  generalize s.mgmt.flags &&& ~~~ before = rises
  have hfold : ∀ (cs : List AlertClass) (u : State), Keeps A u
      (cs.foldl (fun t c => if hasClass rises c then
        t.offerCore (.alert { cls := c, flags := s.mgmt.flags, stalls := s.stallSet, epoch := s.loc.epoch }) else t) u) := by
    intro cs
    induction cs with
    | nil => exact Keeps.refl
    | cons c cs ih =>
      intro u
      refine .after (ih _) ?_
      dsimp only
      split
      · exact u.offerCore_keeps _
      · exact .refl u
  exact hfold alertClasses s

theorem State.takeAlertReport_keeps (r : AlertReport) (s : State) : Keeps A s (s.takeAlertReport r) :=
  .after (State.raiseFrom_keeps ..) (.of_flags fun h => flagsAfterReport_clear h s.anyStall r)

theorem execAlertReport_advances (cls : AlertClass) (s : State) : Advances s (execAlertReport cls s) := by
  unfold execAlertReport
  split
  · exact Keeps.advances (.after (State.takeAlertReport_keeps ..) (.aside rfl rfl rfl rfl rfl))
  · exact advances_self s

theorem State.ackStall_keeps (x : Nat) (s : State) : Keeps A s (s.ackStall x) := by
  unfold State.ackStall
  dsimp only
  split
  · exact .refl s
  · refine State.putSite_keeps_of_cfg rfl (fun hc hne => hc.validSite_of_ne_default fun heq => hne ?_) fun _ hf => hf.site x
    rw [heq]
    rfl

theorem State.ackStalls_keeps (mask : SiteSet) (s : State) : Keeps A s (s.ackStalls mask) := by
  unfold State.ackStalls
  generalize List.range Config.siteCount = is
  induction is generalizing s with
  | nil => exact .refl s
  | cons i is ih =>
    refine .after (ih _) ?_
    dsimp only
    split
    · exact s.ackStall_keeps _
    · exact .refl s

theorem State.ackStalls_mgmt (mask : SiteSet) (s : State) : (s.ackStalls mask).mgmt = s.mgmt := by
  unfold State.ackStalls
  generalize List.range Config.siteCount = is
  induction is generalizing s with
  | nil => rfl
  | cons i is ih =>
    refine (ih _).trans ?_
    dsimp only [State.ackStall]
    split
    · split <;> rfl
    · rfl

theorem State.acknowledge_keeps (f : AckFields) (s : State) : Keeps A s (s.acknowledge f) := by
  unfold State.acknowledge
  dsimp only
  refine .after (State.raiseFrom_keeps ..) (.after (.of_flags fun h => ?_) (State.ackStalls_keeps f.stalls s))
  have hclear : s.mgmt.flags &&& ~~~ s.mgmt.enables = 0 := by
    rw [DisabledFlagsClear, State.ackStalls_mgmt] at h
    exact h
  split
  next henables => rw [henables]; exact flagsAfterEnables_clear ..
  next henables => rw [henables]; exact and_clear (followStall_clear hclear _) _

theorem execAckAlerts_advances (s : State) : Advances s (execAckAlerts s) :=
  complete_advances (fun r t _ _ => changing_keeps (fun f => t.acknowledge_keeps f) r) s

end Sys2Proof.Machine

/-! Writes of the configuration, one by one and in a batch, keep every law. -/

namespace Sys2Proof.Machine

variable {A : Prop} {s t u : State}

/-- The configuration may be changed: LOCK is clear, or a batch accepted before it is still in progress (R146, R148). -/
def Writable (s : State) : Prop := s.mgmt.lock = true → s.mgmt.batch ≠ none

theorem Writable.absurd {P : Prop} (h : Writable s) (hl : s.mgmt.lock = true) (hb : s.mgmt.batch = none) : P :=
  (h hl hb).elim

/-! ### Fields clamped -/

theorem clamp_mem {lo hi : Nat} (h : lo ≤ hi) (n : Nat) : lo ≤ clamp lo hi n ∧ clamp lo hi n ≤ hi := by
  unfold clamp
  omega

theorem clampInt_mem {lo hi : Int} (h : lo ≤ hi) (n : Int) : lo ≤ clampInt lo hi n ∧ clampInt lo hi n ≤ hi := by
  unfold clampInt
  omega

/-- The configured fields a SITE write gives lie in their ranges (R70). -/
theorem parseSiteFields_inRange {fields : List Byte} {cfg : SiteConfig} {a : AdminAction} (h : parseSiteFields fields = some (cfg, a)) :
    cfg.inRange := by
  unfold parseSiteFields at h
  split at h
  next off bias r1 r0 t1 t0 rec cr th depth adm =>
    cases h
    exact ⟨(clampInt_mem (by decide) _).1, (clampInt_mem (by decide) _).2, (clampInt_mem (by decide) _).1,
      (clampInt_mem (by decide) _).2, (clamp_mem (by decide) _).2, (clamp_mem (by decide) _).1, (clamp_mem (by decide) _).2,
      (clamp_mem (by decide) _).1, (clamp_mem (by decide) _).2, (clamp_mem (by decide) _).1, (clamp_mem (by decide) _).2,
      (clamp_mem (by decide) _).1, (clamp_mem (by decide) _).2, (clamp_mem (by decide) _).1, (clamp_mem (by decide) _).2⟩
  next => cases h

/-- The fields a CLASS write gives lie in their ranges (R44). -/
theorem parseClassFields_inRange {fields : List Byte} {p : ClassPolicy} (h : parseClassFields fields = some p) : p.inRange := by
  unfold parseClassFields at h
  split at h
  · cases h
    exact ⟨(clamp_mem (by decide) _).1, (clamp_mem (by decide) _).2, (clamp_mem (by decide) _).2, (clamp_mem (by decide) _).2,
      (clamp_mem (by decide) _).2, (clamp_mem (by decide) _).2, (clamp_mem (by decide) _).1, (clamp_mem (by decide) _).2,
      (clamp_mem (by decide) _).1, (clamp_mem (by decide) _).2, (clamp_mem (by decide) _).1, (clamp_mem (by decide) _).2,
      (clamp_mem (by decide) _).2⟩
  · cases h

/-- The fields a TIMING write gives lie in their ranges (R46). -/
theorem parseTimingFields_inRange {fields : List Byte} {x : Timing} (h : parseTimingFields fields = some x) : x.inRange := by
  unfold parseTimingFields at h
  split at h
  · cases h
    exact ⟨(clamp_mem (by decide) _).2, (clamp_mem (by decide) _).2, (clamp_mem (by decide) _).1, (clamp_mem (by decide) _).2,
      (clamp_mem (by decide) _).1, (clamp_mem (by decide) _).2, (clamp_mem (by decide) _).1, (clamp_mem (by decide) _).2⟩
  · cases h

theorem ClassTable.policy_withPolicy (ps : ClassTable) (c d : RadioClass) (p : ClassPolicy) :
    (ps.withPolicy c p).policy d = if d = c then p else ps.policy d := by
  cases c <;> cases d <;> rfl

/-! ### Site, class, range and timing records -/

theorem State.writeSiteRecord_keeps (hw : Writable s) (key : Nat) (fields : List Byte) :
    Keeps A s (s.writeSiteRecord key fields).1 := by
  unfold State.writeSiteRecord
  split
  · exact .refl s
  next cfg a hparse =>
    split
    next hkey =>
      exact .after (State.admin_keeps hkey a) (State.putSite_keeps (fun _ _ => ⟨hkey, parseSiteFields_inRange hparse⟩)
        (fun _ hf => hf.site key) fun hl hb => hw.absurd hl hb)
    next => exact .refl s

/-- The class policies, the class ranges and the timing record changed. -/
theorem Keeps.of_settings {ps : ClassTable} {rs : Tab ClassRange} {x : Timing} (hw : Writable s)
    (htables : s.loc.ranges.canonical ClassRange.default = true → rs.canonical ClassRange.default = true)
    (hconfig : ConfigurationInRange s → (∀ c, (ps.policy c).inRange) ∧ x.inRange ∧
      ∀ p ∈ rs, p.1 < 16 ∧ validRadio p.2.first = true ∧ validRadio p.2.last = true ∧ p.2.first ≤ p.2.last) :
    Keeps A s { s with loc.policies := ps, loc.ranges := rs, loc.timing := x } where
  pending := rfl
  now := rfl
  tables := fun ⟨h1, h2, h3, h4, h5, h6, h7, h8, hrest⟩ => ⟨h1, h2, h3, h4, h5, h6, h7, htables h8, hrest⟩
  config _ hc := by
    obtain ⟨hps, hx, hrs⟩ := hconfig hc
    obtain ⟨hsites, -, -, -, hrows⟩ := hc
    exact ⟨hsites, hps, hx, hrs, hrows⟩
  entries _ _ _ he := he
  counts _ _ _ _ hn := hn
  queues _ _ hq := hq
  control _ _ hq := hq
  locked _ hl hb := hw.absurd hl hb

theorem State.writeClassRecord_keeps (hw : Writable s) (key : Nat) (fields : List Byte) :
    Keeps A s (s.writeClassRecord key fields).1 := by
  unfold State.writeClassRecord
  split
  · exact .refl s
  next p hparse =>
    split
    next c _ =>
      refine .of_settings hw id fun hc => ⟨fun d => ?_, hc.2.2.1, hc.2.2.2.1⟩
      rw [ClassTable.policy_withPolicy]
      split
      · exact parseClassFields_inRange hparse
      · exact hc.2.1 d
    next => exact .refl s

theorem State.writeRangeRecord_keeps (hw : Writable s) (key : Nat) (fields : List Byte) :
    Keeps A s (s.writeRangeRecord key fields).1 := by
  unfold State.writeRangeRecord
  split
  · exact .refl s
  split
  · exact .refl s
  next hkey =>
    split
    · exact .refl s
    next hradios =>
      split
      · exact .refl s
      · refine .of_settings hw Tab.canonical_put fun hc => ⟨hc.2.1, hc.2.2.1, fun p hp => ?_⟩
        rcases Tab.mem_put hp with rfl | hp
        · simp only [Bool.or_eq_true, Bool.not_eq_true', decide_eq_true_eq, not_or, Bool.not_eq_false] at hradios
          obtain ⟨⟨hfirst, hlast⟩, hle⟩ := hradios
          exact ⟨Nat.lt_of_not_le hkey, hfirst, hlast, BitVec.not_lt.mp hle⟩
        · exact hc.2.2.2.1 p hp

theorem State.writeTimingRecord_keeps (hw : Writable s) (key : Nat) (fields : List Byte) :
    Keeps A s (s.writeTimingRecord key fields).1 := by
  unfold State.writeTimingRecord
  split
  · exact .refl s
  next hparse =>
    split
    · exact .of_settings hw id fun hc => ⟨hc.2.1, parseTimingFields_inRange hparse, hc.2.2.2.1⟩
    · exact .refl s

/-! ### Group rows -/

/-- The group rows changed, and with them the counts kept by row. -/
theorem Keeps.of_rows {rows : Tab GroupRow} {members : Tab (Tab Nat)} {emergencies : Tab Nat} (hw : Writable s)
    (htables : TablesCanonical s → rows.canonical GroupRow.default = true ∧ MembersCanonical members ∧ emergencies.canonical 0 = true)
    (hconfig : ConfigurationInRange s →
      (∀ p ∈ rows, p.1 < 256 ∧ (p.2.valid = true → p.2.talkgroup ≠ 0 ∧ p.2.talkgroup ≠ 0xFFFF)) ∧
        ∀ p ∈ rows, ∀ q ∈ rows, p.2.valid = true → q.2.valid = true → p.2.talkgroup = q.2.talkgroup → p.1 = q.1)
    (hcounts : EntriesSound s → CountLaw s →
      CountLaw { s with reach.rows := rows, loc.members := members, loc.emergencies := emergencies }) :
    Keeps A s { s with reach.rows := rows, loc.members := members, loc.emergencies := emergencies } where
  pending := rfl
  now := rfl
  tables hs := by
    obtain ⟨hrows, hmembers, hemergencies⟩ := htables hs
    obtain ⟨h1, h2, h3, h4, -, -, -, h8, -, hrest⟩ := hs
    exact ⟨h1, h2, h3, h4, hmembers.1, hmembers.2, hemergencies, h8, hrows, hrest⟩
  config _ hc := ⟨hc.1, hc.2.1, hc.2.2.1, hc.2.2.2.1, hconfig hc⟩
  entries _ _ _ he := he
  counts _ _ _ he hn := ⟨hn.1, hcounts he.1 hn.2⟩
  queues _ _ hq := hq
  control _ _ hq := hq
  locked _ hl hb := hw.absurd hl hb

/-- What the checks of a GROUP write let through (R109). -/
theorem State.passed_of_groupCheck {key : Nat} {new : GroupRow} (h : s.groupCheck key new = none) :
    (new.valid = true → new.talkgroup ≠ 0 ∧ new.talkgroup ≠ 0xFFFF) ∧
      (new.valid = true → ∀ p ∈ s.reach.rows, p.1 ≠ key → p.2.valid = true → p.2.talkgroup ≠ new.talkgroup) ∧
      ((s.row key).valid = true → (new.valid = false ∨ new.talkgroup ≠ (s.row key).talkgroup) → s.rowInUse key = false) := by
  unfold State.groupCheck at h
  split at h
  · cases h
  next htalkgroup =>
    split at h
    · cases h
    next hother =>
      dsimp only at h
      split at h
      · cases h
      next huse =>
        refine ⟨fun hv => by simpa [hv] using htalkgroup, fun hv => ?_, fun hv hchanged => ?_⟩
        · simpa [hv] using hother
        · rcases hchanged with hc | hc <;> simpa [hv, hc] using huse

/-- The new row's place among the others (R105). -/
theorem ConfigurationInRange.rows_put {key : Nat} {new : GroupRow} (hc : ConfigurationInRange s) (hkey : key < 256)
    (hcheck : s.groupCheck key new = none) :
    (∀ p ∈ s.reach.rows.put GroupRow.default key new,
        p.1 < 256 ∧ (p.2.valid = true → p.2.talkgroup ≠ 0 ∧ p.2.talkgroup ≠ 0xFFFF)) ∧
      ∀ p ∈ s.reach.rows.put GroupRow.default key new, ∀ q ∈ s.reach.rows.put GroupRow.default key new,
        p.2.valid = true → q.2.valid = true → p.2.talkgroup = q.2.talkgroup → p.1 = q.1 := by
  obtain ⟨htalkgroup, hother, -⟩ := State.passed_of_groupCheck hcheck
  obtain ⟨-, -, -, -, hrows, hdistinct⟩ := hc
  refine ⟨fun p hp => ?_, fun p hp q hq hpv hqv heq => ?_⟩
  · rcases Tab.mem_put hp with rfl | hp
    · exact ⟨hkey, htalkgroup⟩
    · exact hrows p hp
  · refine Classical.byContradiction fun hne => ?_
    rcases Tab.mem_put hp with rfl | hp <;> rcases Tab.mem_put hq with rfl | hq
    · exact hne rfl
    · exact hother hpv q hq (Ne.symm hne) hqv heq.symm
    · exact hother hqv p hp hne hpv heq
    · exact hne (hdistinct p hp q hq hpv hqv heq)

/-- The sites of a talkgroup's entries counted. -/
theorem atD_foldl_raiseAt (g : Talkgroup) (entries : Tab Entry) (t : Tab Nat) (x : Nat) :
    (entries.foldl (fun t p => if p.2.talkgroup = g then raiseAt p.2.sites t else t) t).atD x 0 =
      t.atD x 0 + Tab.total (memberWeight g x) entries := by
  induction entries generalizing t with
  | nil => rfl
  | cons p entries ih =>
    rw [List.foldl_cons, ih, Tab.total_cons, memberWeight]
    split
    · rw [atD_raiseAt]; omega
    · omega

theorem canonical_foldl_raiseAt (g : Talkgroup) (entries : Tab Entry) {t : Tab Nat} (h : t.canonical 0 = true) :
    (entries.foldl (fun t p => if p.2.talkgroup = g then raiseAt p.2.sites t else t) t).canonical 0 = true := by
  induction entries generalizing t with
  | nil => exact h
  | cons p entries ih =>
    refine ih ?_
    dsimp only
    split
    · exact canonical_raiseAt h
    · exact h

theorem State.recount_memberCount (key k x : Nat) (g : Talkgroup) (s : State) :
    (s.recount key g).memberCount k x = if k = key then Tab.total (memberWeight g x) s.loc.entries else s.memberCount k x := by
  change Tab.atD ((s.loc.members.put [] key _).atD k []) x 0 = _
  rw [Tab.atD_put]
  split
  · rw [atD_foldl_raiseAt]
    exact Nat.zero_add _
  · rfl

theorem State.recount_emergencyCount (key k : Nat) (g : Talkgroup) (s : State) :
    (s.recount key g).emergencyCount k = if k = key then Tab.total (emergencyWeight g) s.loc.entries else s.emergencyCount k := by
  change (s.loc.emergencies.put 0 key _).atD k 0 = _
  rw [Tab.atD_put, ← emergencies_eq_total]
  split
  · exact List.countP_congr fun p _ => by simp
  · rfl

/-- A group row written. -/
def State.putRow (key : Nat) (new : GroupRow) (s : State) : State :=
  { s with reach.rows := s.reach.rows.put GroupRow.default key new }

theorem State.putRow_row (key k : Nat) (new : GroupRow) (s : State) :
    (s.putRow key new).row k = if k = key then new else s.row k := Tab.atD_put ..

theorem State.putRow_loc (key : Nat) (new : GroupRow) (s : State) : (s.putRow key new).loc = s.loc := rfl

/-- The counts of a row recounted are those of its talkgroup (R110). -/
theorem CountLaw.recount {key : Nat} {new : GroupRow} (hv : new.valid = true) (he : EntriesSound s) (h : CountLaw s) :
    CountLaw ((s.putRow key new).recount key new.talkgroup) := by
  rw [CountLaw_iff (s := (s.putRow key new).recount key new.talkgroup) he]
  rw [CountLaw_iff he] at h
  intro k
  have hrow : ((s.putRow key new).recount key new.talkgroup).row k = if k = key then new else s.row k := s.putRow_row key k new
  simp only [hrow, State.recount_memberCount, State.recount_emergencyCount, State.putRow_loc]
  by_cases hk : k = key
  · simp only [if_pos hk, if_pos hv]
    exact ⟨fun _ _ _ => rfl, rfl⟩
  · simp only [if_neg hk]
    exact h k

/-- The counts of a row not in use are 0. -/
theorem State.counts_of_not_rowInUse {key : Nat} (h : s.rowInUse key = false) :
    (∀ x, s.memberCount key x = 0) ∧ s.emergencyCount key = 0 := by
  simp only [State.rowInUse, Bool.or_eq_false_iff, decide_eq_false_iff_not, Decidable.not_not, List.any_eq_false] at h
  refine ⟨fun x => ?_, h.2⟩
  exact Tab.atD_of_forall (P := fun n => n = 0) rfl (fun p hp => by simpa using h.1 p hp) x

/-- A row whose talkgroup's counts do not change keeps the counts. -/
theorem CountLaw.put_row {key : Nat} {new : GroupRow} (hcheck : s.groupCheck key new = none)
    (hsame : new.valid = true → (s.row key).valid = true ∧ new.talkgroup = (s.row key).talkgroup) (h : CountLaw s) :
    CountLaw (s.putRow key new) := by
  intro k
  rw [State.putRow_row]
  by_cases hk : k = key
  · subst hk
    rw [if_pos rfl]
    cases hv : new.valid with
    | true =>
      obtain ⟨hold, hg⟩ := hsame hv
      have hlaw := h k
      rw [hold] at hlaw
      rw [hg]
      exact hlaw
    | false =>
      have hzero : (∀ x, 1 ≤ x → x ≤ 40 → s.memberCount k x = 0) ∧ s.emergencyCount k = 0 := by
        cases hold : (s.row k).valid with
        | true =>
          have hfree := State.counts_of_not_rowInUse ((State.passed_of_groupCheck hcheck).2.2 hold (.inl hv))
          exact ⟨fun x _ _ => hfree.1 x, hfree.2⟩
        | false => simpa [hold] using h k
      exact hzero
  · rw [if_neg hk]
    exact h k

theorem State.writeGroupRecord_keeps (hw : Writable s) (key : Nat) (fields : List Byte) :
    Keeps A s (s.writeGroupRecord key fields).1 := by
  unfold State.writeGroupRecord
  split
  · exact .refl s
  next new _ =>
    split
    · exact .refl s
    next hkey =>
      split
      · exact .refl s
      next hcheck =>
        have hconfig := fun hc : ConfigurationInRange s => hc.rows_put (Nat.lt_of_not_le hkey) hcheck
        dsimp only
        split
        next hrecount =>
          have hv : new.valid = true := (Bool.and_eq_true_iff.mp hrecount).1
          refine .of_rows hw (fun hs => ?_) hconfig (CountLaw.recount hv)
          obtain ⟨-, -, -, -, hmembers, hinner, hemergencies, -, hrows, -⟩ := hs
          exact ⟨Tab.canonical_put hrows, MembersCanonical.put ⟨hmembers, hinner⟩ key (canonical_foldl_raiseAt _ _ rfl),
            Tab.canonical_put hemergencies⟩
        next hrecount =>
          refine .of_rows hw (fun hs => ?_) hconfig fun _ hn => CountLaw.put_row hcheck (fun hv => ?_) hn
          · obtain ⟨-, -, -, -, hmembers, hinner, hemergencies, -, hrows, -⟩ := hs
            exact ⟨Tab.canonical_put hrows, ⟨hmembers, hinner⟩, hemergencies⟩
          · simpa [hv] using hrecount

/-! ### Records and batches -/

theorem State.writeRecord_keeps (hw : Writable s) (table key : Nat) (fields : List Byte) :
    Keeps A s (s.writeRecord table key fields).1 := by
  unfold State.writeRecord
  split
  · exact State.writeSiteRecord_keeps hw key fields
  · exact State.writeClassRecord_keeps hw key fields
  · exact State.writeRangeRecord_keeps hw key fields
  · exact State.writeGroupRecord_keeps hw key fields
  · exact State.writeTimingRecord_keeps hw key fields
  · exact .refl s

/-- A WRITE that passes the checks finds LOCK clear. -/
theorem writable_of_precheck {r : Request} (h : s.precheck r = none) (hheld : r.heldByLock = true) : Writable s := by
  intro hl
  rw [State.lock_clear_of_precheck h hheld] at hl
  cases hl

theorem writing_advances {code : Nat} {effect : Nat × List Byte → State → State × Result}
    (h : ∀ p (t : State), Writable t → Keeps True t (effect p t).1) (s : State) :
    Advances s (.next (s.complete (Request.isRow .write code) (changing parseWrite effect))) :=
  complete_advances (fun r t hfor hcheck => changing_keeps
    (fun p => h p t (writable_of_precheck hcheck (by rw [Request.heldByLock, Request.kind_of_isFor hfor]))) r) s

theorem execWriteSite_advances (s : State) : Advances s (execWriteSite s) :=
  writing_advances (fun p _ hw => State.writeSiteRecord_keeps hw p.1 p.2) s

theorem execWriteClass_advances (s : State) : Advances s (execWriteClass s) :=
  writing_advances (fun p _ hw => State.writeClassRecord_keeps hw p.1 p.2) s

theorem execWriteRange_advances (s : State) : Advances s (execWriteRange s) :=
  writing_advances (fun p _ hw => State.writeRangeRecord_keeps hw p.1 p.2) s

theorem execWriteGroup_advances (s : State) : Advances s (execWriteGroup s) :=
  writing_advances (fun p _ hw => State.writeGroupRecord_keeps hw p.1 p.2) s

theorem execWriteTiming_advances (s : State) : Advances s (execWriteTiming s) :=
  writing_advances (fun p _ hw => State.writeTimingRecord_keeps hw p.1 p.2) s

/-- The items of a BATCH number 1 to 16 (R153). -/
theorem Request.length_items {r : Request} {items : List (List Byte)} (h : r.items = some items) :
    1 ≤ items.length ∧ items.length ≤ 16 := by
  unfold Request.items at h
  split at h
  · cases h
  split at h
  · split at h
    next hlen =>
      cases h
      exact hlen.2
    next => cases h
  · cases h

theorem execBatch_advances (s : State) : Advances s (execBatch s) := by
  refine complete_advances (fun r t hfor hcheck => ?_) s
  have hkind : r.kind = .batch := of_decide_eq_true hfor
  have hlock : t.mgmt.lock = false := State.lock_clear_of_precheck hcheck (by rw [Request.heldByLock, hkind])
  unfold State.startBatch
  split
  next items hitems =>
    obtain ⟨hpos, hle⟩ := Request.length_items hitems
    refine .of_guard (fun _ hl => ?_) (fun _ b hb => ?_) fun hl _ => ?_
    · rw [hlock] at hl
      cases hl
    · cases hb
      exact ⟨List.ne_nil_of_length_pos hpos, Nat.zero_add _, hle⟩
    · rw [hlock] at hl
      cases hl
  next => exact .refl t

theorem State.admin_batch (x : Nat) (a : AdminAction) (s : State) : (s.admin x a).mgmt.batch = s.mgmt.batch := by
  cases a with
  | keep => rfl
  | enable => change (s.enableSite x).mgmt.batch = _; unfold State.enableSite; dsimp only; split <;> rfl
  | bar => change (s.barSite x).mgmt.batch = _; unfold State.barSite; dsimp only; split <;> rfl
  | remove =>
    change (s.removeSite x).mgmt.batch = _
    unfold State.removeSite
    dsimp only
    split
    · rfl
    · rw [State.reportChange_mgmt_batch]
      split <;> rfl

/-- A record written leaves the batch in progress alone. -/
theorem State.writeRecord_batch (table key : Nat) (fields : List Byte) (s : State) :
    (s.writeRecord table key fields).1.mgmt.batch = s.mgmt.batch := by
  unfold State.writeRecord
  split
  · unfold State.writeSiteRecord
    split
    · rfl
    · split
      · exact State.admin_batch ..
      · rfl
  · unfold State.writeClassRecord
    split
    · rfl
    · split <;> rfl
  · unfold State.writeRangeRecord
    split
    · rfl
    split
    · rfl
    split
    · rfl
    · split <;> rfl
  · unfold State.writeGroupRecord
    split
    · rfl
    split
    · rfl
    split
    · rfl
    · dsimp only
      split <;> rfl
  · unfold State.writeTimingRecord
    split
    · rfl
    · split <;> rfl
  · rfl

/-- An item applied is a record written, or nothing. -/
theorem State.applyItem_cases (item : List Byte) (s : State) :
    (∃ table key fields, s.applyItem item = s.writeRecord table key fields) ∨ ∃ res, s.applyItem item = (s, res) := by
  unfold State.applyItem
  split
  · exact .inr ⟨_, rfl⟩
  split
  · exact .inr ⟨_, rfl⟩
  split
  · split
    · exact .inl ⟨_, _, _, rfl⟩
    · exact .inr ⟨_, rfl⟩
  · exact .inr ⟨_, rfl⟩

theorem State.applyItem_keeps (hw : Writable s) (item : List Byte) : Keeps A s (s.applyItem item).1 := by
  obtain ⟨table, key, fields, h⟩ | ⟨res, h⟩ := s.applyItem_cases item
  · rw [h]
    exact State.writeRecord_keeps hw table key fields
  · rw [h]
    exact .refl s

theorem State.applyItem_batch (item : List Byte) (s : State) : (s.applyItem item).1.mgmt.batch = s.mgmt.batch := by
  obtain ⟨table, key, fields, h⟩ | ⟨res, h⟩ := s.applyItem_cases item
  · rw [h]
    exact s.writeRecord_batch table key fields
  · rw [h]

/-- Ending the batch in progress keeps every law. -/
theorem State.endBatch_keeps (hb : s.mgmt.batch ≠ none) (tag : BitVec 16) (applied : Nat) (res : Result) :
    Keeps A s (s.endBatch tag applied res) :=
  .after (State.respond_keeps ..) (.of_guard (fun _ _ => rfl) (fun _ _ => nofun) fun _ h => absurd h hb)

/-- The batch in progress left with the rest of its items keeps every law. -/
theorem State.nextItem_keeps {b : Batch} {item : List Byte} {rest : List (List Byte)} (hb : s.mgmt.batch = some b)
    (hitems : b.rest = item :: rest) (hrest : rest ≠ []) :
    Keeps A s { s with mgmt.batch := some { b with applied := b.applied + 1, rest := rest } } := by
  refine .of_guard (fun hlaw hl => ?_) (fun hf b' hb' => ?_) fun _ h => ?_
  · cases (hlaw hl).symm.trans hb
  · cases hb'
    obtain ⟨-, hlen, hle⟩ := hf.2.2.2.2.2 b hb
    rw [hitems, List.length_cons] at hlen
    exact ⟨hrest, by dsimp only; omega, hle⟩
  · cases h.symm.trans hb

theorem execBatchItem_advances (s : State) : Advances s (execBatchItem s) := by
  unfold execBatchItem
  split
  · exact advances_self s
  next b hb =>
    have hne : s.mgmt.batch ≠ none := by rw [hb]; nofun
    split
    · exact (State.endBatch_keeps hne ..).advances
    next item rest hitems =>
      have happly : Keeps True s (s.applyItem item).1 := State.applyItem_keeps (fun _ => hne) item
      have hbatch : (s.applyItem item).1.mgmt.batch = s.mgmt.batch := s.applyItem_batch item
      split
      next t heq =>
        rw [heq] at happly hbatch
        split
        · exact (Keeps.after (State.endBatch_keeps (hbatch ▸ hne) ..) happly).advances
        next hrest => exact (Keeps.after (State.nextItem_keeps (hbatch.trans hb) hitems hrest) happly).advances
      next t res _ heq =>
        rw [heq] at happly hbatch
        exact (Keeps.after (State.endBatch_keeps (hbatch ▸ hne) ..) happly).advances

end Sys2Proof.Machine

/-! Resets meet and keep every law; then the statements about every step. -/

namespace Sys2Proof.Machine

variable {A : Prop} {s t u : State}

/-! ### The state at power-on -/

theorem ClassTable.default_inRange (c : RadioClass) : (ClassTable.default.policy c).inRange := by
  unfold ClassPolicy.inRange
  cases c <;> decide

theorem Timing.default_inRange : Timing.default.inRange := by unfold Timing.inRange; decide

/-- Settles O53: at reset every table is empty. -/
theorem resetMeetsLaws : Obligations.ResetMeetsLaws := by
  refine ⟨⟨rfl, rfl, rfl, rfl, rfl, nofun, rfl, rfl, rfl, rfl, rfl, rfl, rfl⟩,
    ⟨nofun, ClassTable.default_inRange, Timing.default_inRange, nofun, nofun, nofun⟩, nofun, ⟨nofun, List.nodup_nil, nofun⟩,
    ⟨nofun, nofun, nofun⟩, fun _ _ _ => rfl, fun _ => ⟨fun _ _ _ => rfl, rfl⟩, ⟨⟨nofun, nofun⟩, fun _ => rfl⟩, fun _ => rfl,
    ⟨nofun, List.nodup_nil⟩, ⟨rfl, Nat.zero_le _⟩, ⟨fun _ => Nat.zero_le _, fun _ => Nat.zero_le _, Nat.zero_le _⟩,
    ⟨fun _ => Nat.zero_le _, by decide, Nat.zero_le _, fun q => ?_, fun _ => ⟨Nat.zero_le _, Nat.zero_le _⟩, nofun⟩, rfl⟩
  cases q <;> exact Nat.zero_le _

/-! ### Resets -/

/-- What a reset with LOCK set afterwards leaves (R152). -/
def lockedReset (causes : ResetCauses) (straps : BitVec 6) (s : State) : State :=
  { State.reset with
    pending := s.pending
    now := s.now
    straps := straps
    monitor.sites := s.monitor.sites.remap SiteRecord.default SiteRecord.afterReset
    loc.boundary := some (s.now + s.loc.timing.epochLength)
    loc.policies := s.loc.policies
    loc.ranges := s.loc.ranges
    loc.timing := s.loc.timing
    reach.rows := s.reach.rows.filter fun p => p.2.valid
    mgmt.run := .run
    mgmt.lock := true
    mgmt.causes := causes
    mgmt.unit := straps
    mgmt.enables := s.mgmt.enables }

theorem State.applyReset_of_lock {k : ResetKind} (h : lockAfter k s.mgmt.lock = true) (straps : BitVec 6) :
    s.applyReset k straps = lockedReset (s.mgmt.causes.after k) straps s := by
  unfold State.applyReset
  rw [h]
  rfl

theorem State.applyReset_of_unlock {k : ResetKind} (h : lockAfter k s.mgmt.lock = false) (straps : BitVec 6) :
    s.applyReset k straps = unlockedReset (s.mgmt.causes.after k) straps s := by
  unfold State.applyReset
  rw [h]
  rfl

/-- A reset that returns everything to its power-on value meets every law. -/
theorem unlockedReset_keepsLaws (causes : ResetCauses) (straps : BitVec 6) (s : State) :
    KeepsLaws A s (unlockedReset causes straps s) := by
  obtain ⟨htables, hconfig, hentries, htable, hinboxes, hload, hcount, hepoch, hlock, hcalls, hpool, hcapacity, hfigures, hdisabled⟩ :=
    resetMeetsLaws
  exact {
    pending := rfl
    now := rfl
    tables := fun _ => htables
    config := fun _ _ => hconfig
    entries := fun _ _ _ _ => ⟨hentries, htable, hinboxes⟩
    counts := fun _ _ _ _ _ => ⟨hload, hcount⟩
    queues := fun _ _ _ => ⟨hpool, hcapacity⟩
    control := fun _ _ _ => ⟨hepoch, hlock, hcalls, hfigures, hdisabled⟩ }

theorem SiteRecord.afterReset_default : SiteRecord.afterReset SiteRecord.default = SiteRecord.default := rfl

theorem lockedReset_site (hs : TablesCanonical s) (causes : ResetCauses) (straps : BitVec 6) (x : Nat) :
    (lockedReset causes straps s).site x = (s.site x).afterReset :=
  Tab.atD_remap (Tab.canonical_iff.mp hs.1).1 SiteRecord.afterReset_default x

/-- A reset with LOCK set leaves the valid group rows, and none other. -/
theorem lockedReset_row (hs : TablesCanonical s) (causes : ResetCauses) (straps : BitVec 6) (k : Nat) :
    (lockedReset causes straps s).row k = if (s.row k).valid then s.row k else GroupRow.default := by
  obtain ⟨-, -, -, -, -, -, -, -, hrows, -⟩ := hs
  change Tab.atD (s.reach.rows.filter fun p => p.2.valid) k GroupRow.default = _
  have hfilter := Tab.at?_filter (fun p : Nat × GroupRow => p.2.valid) (Tab.canonical_iff.mp hrows).1 k
  unfold State.row Tab.atD
  rw [hfilter]
  cases hk : s.reach.rows.at? k with
  | none => rfl
  | some row => cases hv : row.valid <;> simp [hv, Option.filter]

theorem lockedReset_keepsLaws (causes : ResetCauses) (straps : BitVec 6) (s : State) :
    KeepsLaws A s (lockedReset causes straps s) := by
  obtain ⟨-, -, hentries, htable, hinboxes, hload, -, -, -, hcalls, hpool, hcapacity, hfigures, -⟩ := resetMeetsLaws
  obtain ⟨hcredits, hpointer, hrequests, hsymbols, -, hbatch⟩ := hfigures
  exact {
    pending := rfl
    now := rfl
    tables := fun ⟨hsites, _, _, _, _, _, _, hranges, hrows, _⟩ =>
      ⟨Tab.canonical_remap hsites, rfl, rfl, rfl, rfl, nofun, rfl, hranges, Tab.canonical_filter _ hrows, rfl, rfl, rfl, rfl⟩
    config := fun _ ⟨hsites, hpolicies, htiming, hranges, hrows, hdistinct⟩ => by
      refine ⟨fun p hp => ?_, hpolicies, htiming, hranges, fun p hp => hrows p (List.mem_filter.mp hp).1,
        fun p hp q hq => hdistinct p (List.mem_filter.mp hp).1 q (List.mem_filter.mp hq).1⟩
      obtain ⟨q, hq, rfl⟩ := List.mem_map.mp (List.mem_filter.mp hp).1
      exact hsites q hq
    entries := fun _ _ _ _ => ⟨hentries, htable, hinboxes⟩
    counts := fun _ _ _ _ _ => ⟨hload, fun _ => ⟨fun _ _ _ => (ite_self _).symm, (ite_self _).symm⟩⟩
    queues := fun _ _ _ => ⟨hpool, hcapacity⟩
    control := fun hs _ _ => by
      refine ⟨⟨⟨fun _ => rfl, fun _ => rfl⟩, nofun⟩, fun _ => rfl, hcalls,
        ⟨hcredits, hpointer, hrequests, hsymbols, fun x => ?_, hbatch⟩, BitVec.zero_and⟩
      rw [lockedReset_site hs]
      exact ⟨Nat.zero_le 6, Nat.zero_le _⟩ }

/-- A reset of any kind keeps every law. -/
theorem State.applyReset_keepsLaws (k : ResetKind) (straps : BitVec 6) (s : State) : KeepsLaws A s (s.applyReset k straps) := by
  cases h : lockAfter k s.mgmt.lock with
  | true =>
    rw [State.applyReset_of_lock h]
    exact lockedReset_keepsLaws ..
  | false =>
    rw [State.applyReset_of_unlock h]
    exact unlockedReset_keepsLaws ..

/-- A pin or command reset keeps, with LOCK set, the configuration (R152). -/
theorem State.applyReset_keeps {k : ResetKind} (hk : k ≠ .powerOn) (straps : BitVec 6) (s : State) :
    Keeps A s (s.applyReset k straps) where
  toKeepsLaws := s.applyReset_keepsLaws k straps
  locked hs hl _ := by
    have hlock : lockAfter k s.mgmt.lock = true := by
      cases k with
      | powerOn => exact absurd rfl hk
      | pin | command => exact hl
    rw [State.applyReset_of_lock hlock]
    refine ⟨⟨rfl, fun x => ?_, rfl, rfl, rfl, fun j hj => ?_⟩, rfl⟩
    · rw [lockedReset_site hs]
      rfl
    · rw [lockedReset_row hs, if_pos hj]

theorem execPinReset_advances (straps : BitVec 6) (s : State) : Advances s (execPinReset straps s) :=
  (s.applyReset_keeps (k := .pin) nofun straps).advances

theorem execReset_advances (s : State) : Advances s (execReset s) := by
  refine complete_advances (fun r t _ _ => ?_) s
  unfold resetting
  split
  · exact t.applyReset_keeps (k := .command) nofun t.straps
  · exact .refl t

/-! ### Every command -/

/-- Every command but a power-on reset advances and keeps every law. -/
theorem exec_advances (c : Instr) (hc : ∀ p, c ≠ .powerOnReset p) (s : State) : Advances s (exec c s) := by
  cases c with
  | powerOnReset straps => exact absurd rfl (hc straps)
  | pinReset straps => exact execPinReset_advances straps s
  | syncGained port => exact execSyncGained_advances port s
  | syncLost port cause => exact execSyncLost_advances port cause s
  | invalidSymbol port inFrame cleanRun => exact execInvalidSymbol_advances port inFrame cleanRun s
  | frameTooLong port => exact execFrameTooLong_advances port s
  | frameReceived port bytes ending => exact execFrameReceived_advances port bytes ending s
  | reception => exact execReception_advances s
  | windowExpiry record => exact execWindowExpiry_advances record s
  | callHangExpiry record => exact execCallHangExpiry_advances record s
  | stopVoteClose => exact execStopVoteClose_advances s
  | report => exact execReport_advances s
  | registration => exact execRegistration_advances s
  | directiveAck => exact execDirectiveAck_advances s
  | epochBoundary => exact execEpochBoundary_advances s
  | auditVisit slot => exact execAuditVisit_advances slot s
  | siteLeftUpEntry slot => exact execSiteLeftUpEntry_advances slot s
  | siteRemovedEntry slot => exact execSiteRemovedEntry_advances slot s
  | stopHandoverEnd slot => exact execStopHandoverEnd_advances slot s
  | heartbeat => exact execHeartbeat_advances s
  | stallExpiry site => exact execStallExpiry_advances site s
  | siteUpEgress site => exact execSiteUpEgress_advances site s
  | siteChangeReach => exact execSiteChangeReach_advances s
  | flush site => exact execFlush_advances site s
  | downlink => exact execDownlink_advances s
  | relay => exact execRelay_advances s
  | siteTurn => exact execSiteTurn_advances s
  | siteTurnSent => exact execSiteTurnSent_advances s
  | coreTake => exact execCoreTake_advances s
  | coreFrameSent => exact execCoreFrameSent_advances s
  | mgmtRequest => exact execMgmtRequest_advances s
  | identify => exact execIdentify_advances s
  | status => exact execStatus_advances s
  | readSite | readClass | readRange | readGroup | readTiming | readRadio | readCall | readCounters => exact reading_advances _ _ _ s
  | writeSite => exact execWriteSite_advances s
  | enable site => exact admin_advances site .enable s
  | bar site => exact admin_advances site .bar s
  | remove site => exact admin_advances site .remove s
  | writeClass => exact execWriteClass_advances s
  | writeRange => exact execWriteRange_advances s
  | writeGroup => exact execWriteGroup_advances s
  | writeTiming => exact execWriteTiming_advances s
  | batch => exact execBatch_advances s
  | batchItem => exact execBatchItem_advances s
  | start => exact execStart_advances s
  | stop => exact execStop_advances s
  | lock => exact execLock_advances s
  | floodOn => exact execFloodOn_advances s
  | floodOff => exact execFloodOff_advances s
  | ackAlerts => exact execAckAlerts_advances s
  | clearCounters => exact execClearCounters_advances s
  | forceRoam => exact execForceRoam_advances s
  | evict => exact execEvict_advances s
  | clearEmergency => exact execClearEmergency_advances s
  | reset => exact execReset_advances s
  | alertReport cls => exact execAlertReport_advances cls s

/-- Every command answers a next state, and keeps every law. -/
theorem exec_next_keepsLaws (c : Instr) (s : State) : ∃ t, exec c s = .next t ∧ KeepsLaws True s t := by
  by_cases hc : ∀ p, c ≠ .powerOnReset p
  · obtain ⟨t, ht, hkeeps⟩ := exec_advances c hc s
    exact ⟨t, ht, hkeeps.toKeepsLaws⟩
  · obtain ⟨straps, hstraps⟩ := Classical.not_forall.mp hc
    obtain rfl := Classical.not_not.mp hstraps
    exact ⟨_, rfl, s.applyReset_keepsLaws .powerOn straps⟩

/-! ### Every step -/

/-- A step is a command executed on the rest of the queue, or one millisecond of the clock; neither queue nor time is in any law. -/
theorem step_keepsLaws (h : step s = .next t) : ∃ q n u, KeepsLaws True { s with pending := q } u ∧ t = { u with now := n } := by
  unfold step at h
  split at h
  · cases h
    exact ⟨s.pending, s.now + 1, s, (Keeps.refl s).toKeepsLaws, rfl⟩
  next c rest _ =>
    obtain ⟨u, hu, hkeeps⟩ := exec_next_keepsLaws c { s with pending := rest }
    cases hu.symm.trans h
    exact ⟨rest, t.now, t, hkeeps, rfl⟩

/-- A step that takes no power-on reset keeps LOCK and the configuration too. -/
theorem step_keeps (hreset : ∀ p, s.pending.head? ≠ some (.powerOnReset p)) (h : step s = .next t) :
    ∃ q n u, Keeps True { s with pending := q } u ∧ t = { u with now := n } := by
  unfold step at h
  split at h
  · cases h
    exact ⟨s.pending, s.now + 1, s, .refl s, rfl⟩
  next c rest hpending =>
    obtain ⟨u, hu, hkeeps⟩ := exec_advances c (fun p hp => hreset p (by rw [hpending, hp]; rfl)) { s with pending := rest }
    cases hu.symm.trans h
    exact ⟨rest, t.now, t, hkeeps, rfl⟩

/-- Settles O54. -/
theorem stepKeepsTables : Obligations.StepKeepsTables := by
  intro s t hs h
  obtain ⟨q, n, u, hkeeps, rfl⟩ := step_keepsLaws h
  exact hkeeps.tables hs

/-- Settles O55. -/
theorem stepKeepsConfiguration : Obligations.StepKeepsConfiguration := by
  intro s t hs hc h
  obtain ⟨q, n, u, hkeeps, rfl⟩ := step_keepsLaws h
  exact hkeeps.config hs hc

/-- Settles O56: no command but a power-on reset clears LOCK, and the writes it lets through end with the batch they belong to. -/
theorem lockKeepsConfiguration : Obligations.LockKeepsConfiguration := by
  intro s t hs hl hb hreset h
  obtain ⟨q, n, u, hkeeps, rfl⟩ := step_keeps hreset h
  exact hkeeps.locked hs hl hb

/-- Settles O57. -/
theorem stepKeepsEntries : Obligations.StepKeepsEntries := by
  intro s t hs hc hentries htable hinboxes h
  obtain ⟨q, n, u, hkeeps, rfl⟩ := step_keepsLaws h
  exact hkeeps.entries trivial hs hc ⟨hentries, htable, hinboxes⟩

/-- Settles O58: the counts follow the entries. -/
theorem stepKeepsCounts : Obligations.StepKeepsCounts := by
  intro s t hs hc hentries htable hinboxes hload hcount h
  obtain ⟨q, n, u, hkeeps, rfl⟩ := step_keepsLaws h
  exact hkeeps.counts trivial hs hc ⟨hentries, htable, hinboxes⟩ ⟨hload, hcount⟩

/-- Settles O59. -/
theorem stepKeepsQueues : Obligations.StepKeepsQueues := by
  intro s t hs hc hpool hcapacity h
  obtain ⟨q, n, u, hkeeps, rfl⟩ := step_keepsLaws h
  exact hkeeps.queues hs hc ⟨hpool, hcapacity⟩

/-- Settles O60. -/
theorem stepKeepsControl : Obligations.StepKeepsControl := by
  intro s t hs hc hepoch hlock hcalls hfigures hdisabled h
  obtain ⟨q, n, u, hkeeps, rfl⟩ := step_keepsLaws h
  exact hkeeps.control hs hc ⟨hepoch, hlock, hcalls, hfigures, hdisabled⟩

theorem completedKind_isSome {c : Instr} {r : Request} (h : Completes c r) : (completedKind c).isSome = true := by
  revert h
  cases c <;> simp [Completes, completedKind]

/-- A row that completes requests does nothing while no request waits. -/
theorem exec_of_no_request {c : Instr} {r : Request} (hc : Completes c r) (h : s.mgmt.requests = []) : exec c s = .next s := by
  obtain ⟨k, hk⟩ := Option.isSome_iff_exists.mp (completedKind_isSome hc)
  obtain ⟨isFor, effect, hexec, -⟩ := exec_of_completedKind c k hk
  rw [hexec, State.complete, h]

/-- Settles O2. -/
theorem everyCommandAnswersNext : Obligations.EveryCommandAnswersNext := by
  refine ⟨fun c s => ?_, fun s => ⟨fun h => ?_, fun h => ?_, fun h => ?_, fun h => ⟨?_, ?_⟩, fun h => ?_, fun h => ⟨?_, ?_⟩,
    fun h => ?_, fun h c r hc => exec_of_no_request hc h⟩⟩
  · obtain ⟨t, ht, hkeeps⟩ := exec_next_keepsLaws c s
    exact ⟨t, ht, hkeeps.pending, hkeeps.now⟩
  · change execReception s = _
    rw [execReception, h]
  · change execStopVoteClose s = _
    rw [execStopVoteClose, h]
    rfl
  · change execReport s = _
    rw [execReport, h]
  · change execRegistration s = _
    rw [execRegistration, h]
  · change execDirectiveAck s = _
    rw [execDirectiveAck, h]
  · change execHeartbeat s = _
    rw [execHeartbeat, h]
  · change execDownlink s = _
    rw [execDownlink, h]
  · change execRelay s = _
    rw [execRelay, h]
  · change execMgmtRequest s = _
    rw [execMgmtRequest, h]

end Sys2Proof.Machine

/-! Requests that pass their checks, and what resets leave. -/

namespace Sys2Proof.Machine

variable {s t u : State}

/-! ### Requests at the front of the queue -/

/-- The checks of R142 on a request of the right length and with a code that is defined: only a batch in progress and LOCK hold it
off. -/
theorem State.precheck_of_ok {r : Request} (hlength : r.lengthOk = true) (hcode : r.codeOk = true) (s : State) :
    s.precheck r =
      if s.mgmt.batch.isSome && r.heldByBatch then some .batchActive else if s.mgmt.lock && r.heldByLock then some .locked else none := by
  simp [State.precheck, hlength, hcode]

/-- A request completed by its row, once it has passed the checks. -/
theorem State.complete_of_passed {isFor : Request → Bool} {effect : Request → State → State × Option Answer} {r : Request}
    {rest : List Request} (hfront : Front s r rest) (hfor : isFor r = true) (hcheck : (taken s rest).precheck r = none) :
    s.complete isFor effect =
      match effect r (taken s rest) with
      | (t, some (res, body)) => answeredWith r res body t
      | (t, none) => t := by
  rw [State.complete_of_front _ _ s r rest hfront, if_pos hfor, hcheck] <;> rfl

/-- A request held off by a check. -/
theorem State.complete_of_refused {isFor : Request → Bool} {effect : Request → State → State × Option Answer} {r : Request}
    {rest : List Request} {res : Result} (hfront : Front s r rest) (hfor : isFor r = true)
    (hcheck : (taken s rest).precheck r = some res) :
    s.complete isFor effect = answeredWith r res (if r.kind = .batch then [0] else []) (taken s rest) := by
  rw [State.complete_of_front _ _ s r rest hfront, if_pos hfor, hcheck]

/-! ### Resets -/

theorem SiteRecord.afterReset_eq_restarted (r : SiteRecord) : r.afterReset = r.restarted := by
  obtain ⟨cfg, state, lastHeartbeat, interval, run, alarm, stall⟩ := r
  cases state <;> rfl

/-- What a reset with LOCK set leaves is as R152 says. -/
theorem lockedReset_spec (hs : TablesCanonical s) (causes : ResetCauses) (straps : BitVec 6) :
    LockedReset causes straps s (lockedReset causes straps s) :=
  ⟨rfl, rfl, rfl, rfl, rfl, rfl, rfl, fun x => (lockedReset_site hs causes straps x).trans (SiteRecord.afterReset_eq_restarted _),
    rfl, rfl, rfl, rfl, lockedReset_row hs causes straps, rfl⟩

/-- Settles O3. -/
theorem powerOnAndPinReset : Obligations.PowerOnAndPinReset := by
  refine ⟨fun p s => rfl, fun p s hlock => ?_, fun p s hlock hs => ?_⟩
  · exact congrArg Host.Outcome.next (State.applyReset_of_unlock (k := .pin) hlock p)
  · exact ⟨_, congrArg Host.Outcome.next (State.applyReset_of_lock (k := .pin) hlock p), lockedReset_spec hs _ p⟩

/-- The first frame offered to an empty core queue. -/
theorem State.offerCore_response_of_empty (hempty : s.egress.core = []) (hpool : s.egress.poolUsed = 0) (r : Response) :
    s.offerCore (.response r) = { s with egress.core := [.response r], egress.poolUsed := 1 } := by
  have hverdict : s.coreVerdict (.response r) = .admitted := by
    rw [State.coreVerdict_response, hempty, hpool]
    rfl
  unfold State.offerCore
  rw [hverdict]
  simp only [State.pushCore, hempty, hpool, List.nil_append, Nat.zero_add]

/-- A RESET of the right length is checked by nothing else. -/
theorem State.precheck_of_reset {r : Request} (hkind : r.kind = .reset) (hbody : r.body.length = 1) (s : State) :
    s.precheck r = none := by
  have hlength : r.lengthOk = true := by rw [Request.lengthOk_iff, LengthRight, hkind]; exact hbody
  have hcode : r.codeOk = true := by rw [Request.codeOk, hkind]
  have hbatch : r.heldByBatch = false := by rw [Request.heldByBatch, hkind]
  have hlock : r.heldByLock = false := by rw [Request.heldByLock, hkind]
  rw [State.precheck_of_ok hlength hcode, hbatch, hlock, Bool.and_false, Bool.and_false]
  rfl

theorem exec_reset_of_front {r : Request} {rest : List Request} (hfront : Front s r rest) (hkind : r.kind = .reset)
    (hbody : r.body.length = 1) :
    exec .reset s =
      .next
        (if r.body = [s.mgmt.unit.setWidth 8] then
          answeredWith r .ok [((taken s rest).applyReset .command s.straps).mgmt.causes.toByte]
            ((taken s rest).applyReset .command s.straps)
        else answeredWith r .badValue [] (taken s rest)) := by
  have hexec : exec .reset s = .next (s.complete (Request.isKind .reset) resetting) := rfl
  rw [hexec, State.complete_of_passed hfront (decide_eq_true hkind) (State.precheck_of_reset hkind hbody _)]
  unfold resetting
  by_cases hconfirm : r.body = [s.mgmt.unit.setWidth 8]
  · rw [if_pos hconfirm, if_pos (show r.body = [(taken s rest).mgmt.unit.setWidth 8] from hconfirm)]
    rfl
  · rw [if_neg hconfirm, if_neg (show ¬r.body = [(taken s rest).mgmt.unit.setWidth 8] from hconfirm)]

/-- A command reset leaves an empty core queue, whatever LOCK. -/
theorem State.applyReset_egress (k : ResetKind) (straps : BitVec 6) (s : State) :
    (s.applyReset k straps).egress = State.reset.egress := rfl

/-- Settles O4: the response is offered to the queue the reset has emptied. -/
theorem commandReset : Obligations.CommandReset := by
  refine ⟨fun s r rest hfront hkind hbody hs => ⟨(taken s rest).applyReset .command s.straps, ?_, ?_⟩,
    fun s r rest b hfront hkind hbody hb => ?_⟩
  · cases hlock : s.mgmt.lock with
    | true =>
      rw [State.applyReset_of_lock (s := taken s rest) (k := .command) hlock]
      exact lockedReset_spec hs _ s.straps
    | false =>
      rw [State.applyReset_of_unlock (s := taken s rest) (k := .command) hlock]
      rfl
  · rw [exec_reset_of_front hfront hkind (by rw [hbody]; rfl), if_pos hbody]
    exact congrArg Host.Outcome.next (State.offerCore_response_of_empty rfl rfl _)
  · rw [exec_reset_of_front hfront hkind (by rw [hbody]; rfl), if_neg (by rw [hbody]; simpa using hb)]

/-- Settles O1. -/
theorem stepTakesFrontCommand : Obligations.StepTakesFrontCommand := by
  refine ⟨fun c rest s h => ?_, fun s h => ?_⟩
  · rw [step, h]
  · unfold step
    split
    next => rfl
    next hc => cases h.symm.trans hc

end Sys2Proof.Machine

/-! The line: sync, framing faults, the checks on a received frame, and frames read back. -/

namespace Sys2Proof.Machine

variable {s t u : State}

/-! ### Sync and framing faults -/

theorem PortState.live_iff (r : PortState) : r.live = true ↔ r.inSync = true ∧ r.badSymbols < 4 := by
  simp [PortState.live]

theorem PortTakes.live {p : Port} (h : PortTakes s p) : (s.portState p).live = true := (PortState.live_iff _).mpr h

theorem PortState.live_of_hunting {r : PortState} (h : r.inSync = false) : r.live = false := by
  simp [PortState.live, h]

/-- A port in sync whose signal is gone, or that has had four invalid symbols, loses sync. -/
theorem PortState.loses_of_inSync {r : PortState} {cause : SyncLossCause} (h : r.inSync = true)
    (hbad : cause = .invalidSymbols → 4 ≤ r.badSymbols) : r.loses cause = true := by
  cases cause with
  | invalidSymbols => simp [PortState.loses, h, hbad rfl]
  | noSignal => exact h

theorem PortState.loses_of_hunting {r : PortState} (h : r.inSync = false) (cause : SyncLossCause) : r.loses cause = false := by
  cases cause <;> simp [PortState.loses, h]

theorem exec_syncGained_of_hunting {p : Port} (h : (s.portState p).inSync = false) :
    exec (.syncGained p) s = .next (s.putPort p { inSync := true, badSymbols := 0 }) := by
  change execSyncGained p s = _
  rw [execSyncGained, h]
  rfl

theorem exec_syncGained_of_inSync {p : Port} (h : (s.portState p).inSync = true) : exec (.syncGained p) s = .next s := by
  change execSyncGained p s = _
  rw [execSyncGained, if_pos h]

theorem exec_syncLost_of_hunting {p : Port} (h : (s.portState p).inSync = false) (cause : SyncLossCause) :
    exec (.syncLost p cause) s = .next s := by
  change execSyncLost p cause s = _
  rw [execSyncLost, PortState.loses_of_hunting h]
  rfl

theorem exec_syncLost_of_inSync {p : Port} {cause : SyncLossCause} (h : (s.portState p).inSync = true)
    (hbad : cause = .invalidSymbols → 4 ≤ (s.portState p).badSymbols) :
    exec (.syncLost p cause) s =
      .next
        ((((s.putPort p { inSync := false, badSymbols := 0 }).cutOff p).count (.port p .syncLosses)).reportAlert .linkError true) := by
  change execSyncLost p cause s = _
  rw [execSyncLost, if_pos (PortState.loses_of_inSync h hbad)]

/-- Settles O5. -/
theorem syncGainedAndLost : Obligations.SyncGainedAndLost := by
  refine ⟨fun s h => ⟨exec_syncGained_of_hunting (p := .site) h, exec_syncLost_of_hunting (p := .site) h⟩,
    fun s h => ⟨exec_syncGained_of_hunting (p := .core) h, exec_syncLost_of_hunting (p := .core) h⟩,
    fun s => exec_syncGained_of_inSync (p := .site), fun s => exec_syncGained_of_inSync (p := .core),
    fun s cause h hbad => ?site, fun s cause h hbad => ?core⟩
  case site => exact exec_syncLost_of_inSync (p := .site) h hbad
  case core => exact exec_syncLost_of_inSync (p := .core) h hbad

theorem exec_frameReceived_of_takes {p : Port} (h : PortTakes s p) (bytes : List Byte) (ending : FrameEnd) :
    exec (.frameReceived p bytes ending) s = .next (s.takeFrame p bytes ending) := by
  change execFrameReceived p bytes ending s = _
  rw [execFrameReceived, if_pos h.live]

/-- Settles O6. -/
theorem framingFaultsCounted : Obligations.FramingFaultsCounted := by
  refine ⟨fun s p h => ?_, fun s p inFrame clean h => ?_, fun s p h => ?_⟩
  · change execFrameTooLong p s = _
    rw [execFrameTooLong, if_pos h.live]
  · change execInvalidSymbol p inFrame clean s = _
    rw [execInvalidSymbol]
    dsimp only
    rw [if_pos h.live, h.1]
    rfl
  · have hdead : ¬(s.portState p).live = true := by rw [PortState.live_of_hunting h]; decide
    refine ⟨?_, fun inFrame clean => ?_, fun bytes ending => ?_⟩
    · exact if_neg hdead
    · exact if_neg hdead
    · exact if_neg hdead

/-! ### The bytes of a frame -/

/-- A frame whose bytes fail a check raises that check's counter and no other. -/
theorem exec_frameReceived_of_error {p : Port} {bytes : List Byte} {ending : FrameEnd} {c : PortCounter} (h : PortTakes s p)
    (hread : readFrame p bytes ending = .error c) : exec (.frameReceived p bytes ending) s = .next (s.count (.port p c)) := by
  rw [exec_frameReceived_of_takes h, State.takeFrame, State.classify, hread]

theorem readFrame_of_length {bytes : List Byte} {ending : FrameEnd} (p : Port)
    (h : ending ≠ .endMark ∨ bytes.length < 7 ∨ 262 < bytes.length) : readFrame p bytes ending = .error .lengthErrors := by
  unfold readFrame
  split
  · rfl
  next hend =>
    split
    · rfl
    next hlong =>
      split
      next kind unit len rest =>
        have hshort : rest.length ≠ len.toNat + 4 := by
          simp only [List.length_cons] at h hlong
          have hlen : rest.length + 1 + 1 + 1 < 7 := (h.resolve_left hend).resolve_right hlong
          omega
        exact if_pos hshort
      · rfl

theorem readFrame_of_wrong_length (p : Port) (kind unit len : Byte) {body trailer : List Byte} (ht : trailer.length = 4)
    (h : body.length ≠ len.toNat) : readFrame p (kind :: unit :: len :: (body ++ trailer)) .endMark = .error .lengthErrors := by
  rw [readFrame, if_neg (by decide)]
  split
  · rfl
  · exact if_pos (by rw [List.length_append]; omega)

/-- A frame of the right length: the CRC, the kind and the format are looked at, in that order. -/
theorem readFrame_of_body (p : Port) (kind unit len : Byte) {body trailer : List Byte} (ht : trailer.length = 4)
    (h : body.length = len.toNat) :
    readFrame p (kind :: unit :: len :: (body ++ trailer)) .endMark =
      if trailer ≠ crcTrailer (kind :: unit :: len :: body) then .error .crcErrors
      else
        match kindParser p kind.toNat with
        | none => .error .kindErrors
        | some parse =>
          match parse body with
          | none => .error .formatErrors
          | some f => .ok (unit, f) := by
  have hlen : len.toNat < 256 := len.isLt
  have hfull : (body ++ trailer).length = len.toNat + 4 := by rw [List.length_append]; omega
  have hbody : (body ++ trailer).take len.toNat = body := by rw [← h, List.take_left]
  have htrailer : (body ++ trailer).drop len.toNat = trailer := by rw [← h, List.drop_left]
  rw [readFrame, if_neg (by decide), if_neg (by simp only [List.length_cons]; omega)]
  dsimp only
  rw [if_neg (by omega), hbody, htrailer] <;> rfl

/-- Settles O7. -/
theorem frameBytesCheckedInOrder : Obligations.FrameBytesCheckedInOrder := by
  refine fun s p hp => ⟨fun bytes ending h => exec_frameReceived_of_error hp (readFrame_of_length p h),
    fun kind unit len body trailer ht => ⟨fun h => ?length, fun h hcrc => ?crc, fun h hcrc => ⟨fun hk => ?kind, fun hk hf => ?format,
      fun hk hf => ?right⟩⟩⟩
  case length => exact exec_frameReceived_of_error hp (readFrame_of_wrong_length p kind unit len ht h)
  case crc => exact exec_frameReceived_of_error hp (by rw [readFrame_of_body p kind unit len ht h, if_pos hcrc])
  case kind =>
    refine exec_frameReceived_of_error hp ?_
    rw [readFrame_of_body p kind unit len ht h, if_neg (Classical.not_not.mpr hcrc), (kindParser_eq_none_iff p kind.toNat).mpr hk]
  all_goals
    obtain ⟨parse, hparse⟩ : ∃ parse, kindParser p kind.toNat = some parse :=
      Option.ne_none_iff_exists'.mp fun hnone => (kindParser_eq_none_iff p kind.toNat).mp hnone hk
    obtain ⟨hreads, hkind⟩ := kindParser_reads_iff p kind parse hparse body
  case format =>
    refine exec_frameReceived_of_error hp ?_
    have hnone : parse body = none := Option.not_isSome_iff_eq_none.mp fun hsome => hf (hreads.mp hsome)
    rw [readFrame_of_body p kind unit len ht h, if_neg (Classical.not_not.mpr hcrc), hparse]
    dsimp only
    rw [hnone]
  case right =>
    obtain ⟨f, hbody⟩ := Option.isSome_iff_exists.mp (hreads.mpr hf)
    refine ⟨f, (hkind f hbody).1, (hkind f hbody).2, ?_⟩
    rw [readFrame_of_body p kind unit len ht h, if_neg (Classical.not_not.mpr hcrc), hparse]
    dsimp only
    rw [hbody]

/-! ### The checks that need the part's state -/

theorem validRadio_iff (r : RadioId) : validRadio r = true ↔ r ≠ 0 ∧ r ≠ 0xFFFFFF := by
  simp [validRadio]

/-- The radio of a frame fails check 4. -/
def ReceivedFrame.radioFails (f : ReceivedFrame) : Prop := ∃ r, f.radio? = some r ∧ (r = 0 ∨ r = 0xFFFFFF)

/-- The site of a frame fails check 5. -/
def ReceivedFrame.siteFails (s : State) (f : ReceivedFrame) : Prop :=
  ∃ x, f.site? = some x ∧ (x = 0 ∨ 40 < x ∨ (s.site x).state = .off)

/-- The site of a frame fails check 6. -/
def ReceivedFrame.barredFails (s : State) (f : ReceivedFrame) : Prop :=
  (∃ x, f.site? = some x ∧ (s.site x).state = .barred) ∧ (∀ h, f ≠ .heartbeat h) ∧ ∀ r, f ≠ .relay r

/-- The unit of a frame fails check 7. -/
def ReceivedFrame.unitFails (s : State) (unit : Byte) (f : ReceivedFrame) : Prop :=
  (∃ r, f = .request r) ∧ unit ≠ s.mgmt.unit.setWidth 8

open Classical in
/-- Checks 4 to 7 of R136, in order. -/
theorem State.checkFrame_eq (unit : Byte) (f : ReceivedFrame) (s : State) :
    s.checkFrame unit f =
      if f.radioFails then some .invalidRadio else if f.siteFails s then some .unknownSite
      else if f.barredFails s then some .barredSite else if f.unitFails s unit then some .otherUnit else none := by
  cases f <;>
    simp [State.checkFrame, ReceivedFrame.radioFails, ReceivedFrame.siteFails, ReceivedFrame.barredFails, ReceivedFrame.unitFails,
      ReceivedFrame.radio?, ReceivedFrame.site?, validRadio, Config.siteCount, or_assoc]

/-- A frame that was read and fails a check raises that check's counter and no other. -/
theorem exec_frameReceived_of_check {p : Port} {bytes : List Byte} {unit : Byte} {f : ReceivedFrame} {c : PortCounter}
    (h : PortTakes s p) (hread : readFrame p bytes .endMark = .ok (unit, f)) (hcheck : s.checkFrame unit f = some c) :
    exec (.frameReceived p bytes .endMark) s = .next (s.count (.port p c)) := by
  rw [exec_frameReceived_of_takes h, State.takeFrame, State.classify, hread]
  dsimp only
  rw [hcheck]

/-- Settles O9. -/
theorem refusedFrameCounted : Obligations.RefusedFrameCounted := by
  intro s p bytes unit f hp hread
  refine ⟨fun hradio => ?_, fun hradio hsite => ?_, fun hradio hsite hbarred => ?_, fun hradio hsite hbarred hunit => ?_⟩
  · exact exec_frameReceived_of_check hp hread ((s.checkFrame_eq unit f).trans (if_pos hradio))
  · exact exec_frameReceived_of_check hp hread ((s.checkFrame_eq unit f).trans ((if_neg hradio).trans (if_pos hsite)))
  · exact exec_frameReceived_of_check hp hread
      ((s.checkFrame_eq unit f).trans ((if_neg hradio).trans ((if_neg hsite).trans (if_pos hbarred))))
  · exact exec_frameReceived_of_check hp hread
      ((s.checkFrame_eq unit f).trans ((if_neg hradio).trans ((if_neg hsite).trans ((if_neg hbarred).trans (if_pos hunit)))))

/-- A frame that passes the checks fails none. -/
theorem FramePasses.checkFrame {unit : Byte} {f : ReceivedFrame} (h : FramePasses s unit f) : s.checkFrame unit f = none := by
  obtain ⟨hradio, hsite, hunit⟩ := h
  rw [State.checkFrame_eq, if_neg, if_neg, if_neg, if_neg]
  · rintro ⟨⟨r, rfl⟩, hne⟩
    exact hne (hunit r rfl)
  · rintro ⟨⟨x, hx, hbarred⟩, hheartbeat, hrelay⟩
    rcases (hsite x hx).2.2 hbarred with ⟨h, rfl⟩ | ⟨r, rfl⟩
    · exact hheartbeat h rfl
    · exact hrelay r rfl
  · rintro ⟨x, hx, hbad⟩
    obtain ⟨hvalid, hoff, -⟩ := hsite x hx
    simp only [validSite, Config.siteCount, Bool.and_eq_true, decide_eq_true_eq] at hvalid
    rcases hbad with rfl | hbad | hbad
    · omega
    · omega
    · exact hoff hbad
  · rintro ⟨r, hr, rfl | rfl⟩
    · exact (hradio 0 hr).1 rfl
    · exact (hradio _ hr).2 rfl

/-- Settles O8. -/
theorem acceptedFrameRouted : Obligations.AcceptedFrameRouted := by
  intro s p bytes unit f hp hread hpasses
  rw [exec_frameReceived_of_takes hp, State.takeFrame, State.classify, hread]
  dsimp only
  rw [hpasses.checkFrame]
  cases f <;> rfl

/-! ### Frames read back -/

theorem byte_toNat (n : Nat) : (byte n).toNat = n % 256 := rfl

theorem word24_bytes (w : BitVec 24) : word24 (byte (w.toNat / 65536)) (byte (w.toNat / 256)) (byte w.toNat) = w := by
  refine BitVec.eq_of_toNat_eq ?_
  have hlt := w.isLt
  simp only [word24, numberOf, List.foldl_cons, List.foldl_nil, byte_toNat, BitVec.toNat_ofNat]
  omega

theorem word16_bytes (w : BitVec 16) : word16 (byte (w.toNat / 256)) (byte w.toNat) = w := by
  refine BitVec.eq_of_toNat_eq ?_
  have hlt := w.isLt
  simp only [word16, numberOf, List.foldl_cons, List.foldl_nil, byte_toNat, BitVec.toNat_ofNat]
  omega

theorem CallType.ofCode_code (c : CallType) : CallType.ofCode c.code.toNat = some c := by cases c <;> rfl

theorem RegReason.ofCode_code (r : RegReason) : RegReason.ofCode r.code.toNat = some r := by cases r <;> rfl

theorem RequestKind.ofCode_code (k : RequestKind) : RequestKind.ofCode k.code.toNat = some k := by cases k <;> rfl

theorem flagByte_bit_one (a : Bool) : (flagByte [a]).getLsbD 0 = a := by cases a <;> rfl

theorem flagByte_bits_two (a b : Bool) : (flagByte [a, b]).getLsbD 0 = a ∧ (flagByte [a, b]).getLsbD 1 = b := by
  cases a <;> cases b <;> exact ⟨rfl, rfl⟩

/-- The bytes of a frame as its sender lays it out are read back, where its kind's reader reads its body back. -/
theorem readFrame_frameBytes {p : Port} {kind unit : Byte} {body : List Byte} {parse : List Byte → Option ReceivedFrame}
    {f : ReceivedFrame} (hlen : body.length < 256) (hkind : kindParser p kind.toNat = some parse) (hbody : parse body = some f) :
    readFrame p (frameBytes kind unit body) .endMark = .ok (unit, f) := by
  have hread := readFrame_of_body p kind unit (byte body.length) (trailer := crcTrailer (kind :: unit :: byte body.length :: body))
    (body := body) rfl (by rw [byte_toNat, Nat.mod_eq_of_lt hlen])
  rw [frameBytes]
  refine hread.trans ?_
  rw [if_neg (Classical.not_not.mpr rfl), hkind]
  dsimp only
  rw [hbody]

theorem parseReception_body {c : Copy} (h : (ReceivedFrame.reception c).fits = true) :
    parseReception (ReceivedFrame.reception c).body = some (.reception c) := by
  simp only [ReceivedFrame.fits, Bool.and_eq_true, decide_eq_true_eq, beq_iff_eq] at h
  obtain ⟨⟨⟨hsite, hquality⟩, hpayload⟩, hdest⟩ := h
  simp only [ReceivedFrame.body, bytes3, List.cons_append, List.nil_append, parseReception, CallType.ofCode_code, byte_toNat,
    word24_bytes, hdest, (flagByte_bits_two _ _).1, (flagByte_bits_two _ _).2, Nat.mod_eq_of_lt hsite, Nat.mod_eq_of_lt hquality]
  rw [if_pos (by omega)]

theorem parseRegistration_body {r : Registration} (h : (ReceivedFrame.registration r).fits = true) :
    parseRegistration (ReceivedFrame.registration r).body = some (.registration r) := by
  simp only [ReceivedFrame.fits, Bool.and_eq_true, decide_eq_true_eq, bne_iff_ne] at h
  obtain ⟨⟨hsite, hquality⟩, hg⟩ := h
  simp only [ReceivedFrame.body, bytes3, bytes2, List.cons_append, List.nil_append, parseRegistration, RegReason.ofCode_code,
    byte_toNat, word24_bytes, word16_bytes, Nat.mod_eq_of_lt hsite, Nat.mod_eq_of_lt hquality, Option.map_some, registeredTalkgroup,
    if_neg hg]

theorem parseHeartbeat_body {h : Heartbeat} (hfits : (ReceivedFrame.heartbeat h).fits = true) :
    parseHeartbeat (ReceivedFrame.heartbeat h).body = some (.heartbeat h) := by
  simp only [ReceivedFrame.fits, Bool.and_eq_true, decide_eq_true_eq] at hfits
  simp only [ReceivedFrame.body, parseHeartbeat, byte_toNat, Nat.mod_eq_of_lt hfits.1, Nat.mod_eq_of_lt hfits.2, flagByte_bit_one]

theorem parseAck_body {a : DirectiveAck} (h : (ReceivedFrame.ack a).fits = true) :
    parseAck (ReceivedFrame.ack a).body = some (.ack a) := by
  have hresult : ackAccept (if a.accept then 0 else 1 : Byte).toNat = some a.accept := by cases a.accept <;> rfl
  simp only [ReceivedFrame.body, bytes3, List.cons_append, List.nil_append, parseAck, hresult, byte_toNat, word24_bytes,
    Nat.mod_eq_of_lt (of_decide_eq_true h), Option.map_some]

theorem parseDownlink_body {d : Downlink} (h : (ReceivedFrame.downlink d).fits = true) :
    parseDownlink (ReceivedFrame.downlink d).body = some (.downlink d) := by
  have hpayload : d.payload.length ≤ 64 := of_decide_eq_true h
  simp only [ReceivedFrame.body, bytes3, List.cons_append, List.nil_append, parseDownlink, CallType.ofCode_code, byte_toNat,
    word24_bytes, flagByte_bit_one]
  rw [if_pos (by omega)]

theorem parseRelay_body {r : Relay} (h : (ReceivedFrame.relay r).fits = true) :
    parseRelay (ReceivedFrame.relay r).body = some (.relay r) := by
  simp only [ReceivedFrame.fits, Bool.and_eq_true, decide_eq_true_eq] at h
  simp only [ReceivedFrame.body, List.cons_append, List.nil_append, parseRelay, byte_toNat, Nat.mod_eq_of_lt h.1]
  rw [if_pos (by omega)]

theorem parseRequest_body {r : Request} (h : (ReceivedFrame.request r).fits = true) :
    parseRequest (ReceivedFrame.request r).body = some (.request r) := by
  have hbody : r.body.length ≤ 240 := of_decide_eq_true h
  simp only [ReceivedFrame.body, bytes2, List.cons_append, List.nil_append, parseRequest, RequestKind.ofCode_code, byte_toNat,
    word16_bytes]
  rw [if_pos (by omega)]

/-- A body whose fields fit is short enough for its length byte. -/
theorem ReceivedFrame.length_body {f : ReceivedFrame} (h : f.fits = true) : f.body.length < 256 := by
  cases f with
  | reception c =>
    simp only [ReceivedFrame.fits, Bool.and_eq_true, decide_eq_true_eq] at h
    simp only [ReceivedFrame.body, bytes3, List.length_append, List.length_cons, List.length_nil]
    omega
  | registration => exact (by decide : 8 < 256)
  | heartbeat => exact (by decide : 3 < 256)
  | ack => exact (by decide : 6 < 256)
  | downlink d =>
    have hpayload : d.payload.length ≤ 64 := of_decide_eq_true h
    simp only [ReceivedFrame.body, bytes3, List.length_append, List.length_cons, List.length_nil]
    omega
  | relay r =>
    simp only [ReceivedFrame.fits, Bool.and_eq_true, decide_eq_true_eq] at h
    simp only [ReceivedFrame.body, List.length_append, List.length_cons, List.length_nil]
    omega
  | request r =>
    have hbody : r.body.length ≤ 240 := of_decide_eq_true h
    simp only [ReceivedFrame.body, bytes2, List.length_append, List.length_cons, List.length_nil]
    omega

/-- Settles O10: kind by kind, the reader undoes the layout. -/
theorem receivedFrameReadsBack : Obligations.ReceivedFrameReadsBack := by
  intro f unit h
  have hlen := f.length_body h
  cases f with
  | reception c => exact readFrame_frameBytes hlen rfl (parseReception_body h)
  | registration r => exact readFrame_frameBytes hlen rfl (parseRegistration_body h)
  | heartbeat b => exact readFrame_frameBytes hlen rfl (parseHeartbeat_body h)
  | ack a => exact readFrame_frameBytes hlen rfl (parseAck_body h)
  | downlink d => exact readFrame_frameBytes hlen rfl (parseDownlink_body h)
  | relay r => exact readFrame_frameBytes hlen rfl (parseRelay_body h)
  | request r => exact readFrame_frameBytes hlen rfl (parseRequest_body h)

end Sys2Proof.Machine

/-! Call voting: copies in LOAD, first copies, copies ahead of their call, and the closing of windows. -/

namespace Sys2Proof.Machine

variable {s t u : State}

/-! ### Closing a window -/

theorem Tab.erase_erase {α : Type} (k : Nat) (t : Tab α) : (t.erase k).erase k = t.erase k := by
  simp [Tab.erase, List.filter_filter]

/-- The state with another call table. -/
def State.withCalls (cs : Tab CallRecord) (s : State) : State := { s with vote.calls := cs }

/-- An offer to the core queue does not look at the call table. -/
theorem State.offerCore_withCalls (cs : Tab CallRecord) (f : CoreFrame) (s : State) :
    (s.withCalls cs).offerCore f = (s.offerCore f).withCalls cs := by
  have hverdict : (s.withCalls cs).coreVerdict f = s.coreVerdict f := by cases f <;> rfl
  unfold State.offerCore
  rw [hverdict]
  cases s.coreVerdict f <;> rfl

/-- The call table that a closed window leaves. -/
def callsClosed (k : Nat) (r : CallRecord) (cs : Tab CallRecord) : Tab CallRecord :=
  if r.endSeen then cs.erase k else cs.insert k { r with isOpen := false }

/-- What closing a window offers and counts. -/
def State.forwarded (r : CallRecord) (s : State) : State :=
  match r.best with
  | some b => (s.offerCore (.uplink (r.uplink b))).count (.global .votedBursts)
  | none => s.count (.global .burstsLost)

theorem State.forwarded_withCalls (r : CallRecord) (cs : Tab CallRecord) (s : State) :
    (s.withCalls cs).forwarded r = (s.forwarded r).withCalls cs := by
  unfold State.forwarded
  cases r.best with
  | none => rfl
  | some b =>
    dsimp only
    rw [State.offerCore_withCalls]
    rfl

theorem windowClosed_eq (k : Nat) (r : CallRecord) (s : State) :
    windowClosed k r s = (s.forwarded r).withCalls (callsClosed k r s.vote.calls) := by
  rw [← State.forwarded_withCalls]
  obtain ⟨radio, tag, callType, dest, seq, isOpen, deadline, best, copies, endSeen, emergencySeen, lastActivity, hangDeadline⟩ := r
  cases best <;> rfl

/-- Closing a window does what R96 says. -/
theorem State.closeWindow_eq_windowClosed (k : Nat) (r : CallRecord) (s : State) : s.closeWindow k r = windowClosed k r s := by
  have hforwarded : s.windowForwarded k r = (s.forwarded r).withCalls (s.vote.calls.insert k { r with isOpen := false }) :=
    s.forwarded_withCalls r _
  rw [State.closeWindow_eq, windowClosed_eq, callsClosed, hforwarded]
  split
  · change (s.forwarded r).withCalls ((s.vote.calls.insert k { r with isOpen := false }).erase k) = _
    rw [Tab.erase_insert]
  · rfl

theorem windowClosed_calls (k : Nat) (r : CallRecord) (s : State) :
    (windowClosed k r s).vote.calls = callsClosed k r s.vote.calls := by
  rw [windowClosed_eq]
  rfl

/-- A window written and closed in one event is closed (R97). -/
theorem State.startWindow_eq_openedIn (k : Nat) (r : CallRecord) (s : State) : s.startWindow k r = openedIn k r s := by
  unfold State.startWindow openedIn
  dsimp only
  split
  · rw [State.closeWindow_eq_windowClosed, windowClosed_eq, windowClosed_eq]
    change ((s.withCalls (s.vote.calls.insert k r)).forwarded r).withCalls (callsClosed k r (s.vote.calls.insert k r)) = _
    rw [State.forwarded_withCalls, callsClosed, callsClosed, Tab.erase_insert, Tab.insert_insert]
    rfl
  · rfl

/-! ### Copies in LOAD -/

theorem exec_reception_of_cons {c : Copy} {rest : List Copy} (h : s.vote.inbox = c :: rest) :
    exec .reception s = .next (({ s with vote.inbox := rest } : State).takeCopy c) := by
  change execReception s = _
  rw [execReception, h]

theorem exec_reception_of_ping {c : Copy} {rest : List Copy} (h : s.vote.inbox = c :: rest) (hping : c.callType = .ping) :
    exec .reception s = .next (reported s c rest) := by
  rw [exec_reception_of_cons h, State.takeCopy, if_pos hping]
  rfl

/-- RECEPTION in LOAD of a copy that is not a PING: reported, then passed through (R101). -/
theorem exec_reception_of_load {c : Copy} {rest : List Copy} (h : s.vote.inbox = c :: rest) (hping : c.callType ≠ .ping)
    (hload : s.mgmt.run = .load) :
    exec .reception s = .next ((reported s c rest).passThrough c (adjustedQuality s c.site c.quality)) := by
  have hload' : ({ s with vote.inbox := rest } : State).mgmt.run = .load := hload
  rw [exec_reception_of_cons h, State.takeCopy, if_neg hping, hload', ← rawQuality_map_adjust]
  rfl

/-- What a vote leaves alone: all but the calls, the core queue and the counters. -/
def VoteLeaves (s t : State) : Prop :=
  t.loc = s.loc ∧ t.vote.inbox = s.vote.inbox ∧ t.monitor = s.monitor ∧ t.reach = s.reach ∧ t.classifier = s.classifier

theorem VoteLeaves.refl (s : State) : VoteLeaves s s := ⟨rfl, rfl, rfl, rfl, rfl⟩

theorem VoteLeaves.trans (h1 : VoteLeaves s t) (h2 : VoteLeaves t u) : VoteLeaves s u := by
  obtain ⟨hloc1, hinbox1, hmonitor1, hreach1, hclassifier1⟩ := h1
  obtain ⟨hloc2, hinbox2, hmonitor2, hreach2, hclassifier2⟩ := h2
  exact ⟨hloc2.trans hloc1, hinbox2.trans hinbox1, hmonitor2.trans hmonitor1, hreach2.trans hreach1, hclassifier2.trans hclassifier1⟩

theorem voteLeaves_passThrough (c : Copy) (a : Option Nat) (s : State) : VoteLeaves s (s.passThrough c a) :=
  ⟨by simp, by simp, by simp, by simp, by simp⟩

theorem voteLeaves_closeWindow (k : Nat) (r : CallRecord) (s : State) : VoteLeaves s (s.closeWindow k r) :=
  ⟨by simp, by simp, by simp, by simp, by simp⟩

theorem voteLeaves_startWindow (k : Nat) (r : CallRecord) (s : State) : VoteLeaves s (s.startWindow k r) :=
  ⟨by simp, by simp, by simp, by simp, by simp⟩

theorem voteLeaves_newCall (c : Copy) (a : Option Nat) (s : State) : VoteLeaves s (s.newCall c a) := by
  unfold State.newCall
  split
  · exact voteLeaves_startWindow ..
  · exact (voteLeaves_passThrough c a s).trans ⟨rfl, rfl, rfl, rfl, rfl⟩

theorem voteLeaves_aheadCopy (k : Nat) (c : Copy) (a : Option Nat) (r : CallRecord) (s : State) :
    VoteLeaves s (s.aheadCopy k c a r) := by
  unfold State.aheadCopy
  split
  · refine (voteLeaves_closeWindow k r s).trans ?_
    dsimp only
    split
    · exact voteLeaves_newCall ..
    · exact voteLeaves_startWindow ..
  · exact voteLeaves_startWindow ..

theorem voteLeaves_voteOn (c : Copy) (a : Option Nat) (s : State) : VoteLeaves s (s.voteOn c a) := by
  have hlate : ∀ k r, VoteLeaves s (s.lateCopy k c r) := fun _ _ => ⟨rfl, rfl, rfl, rfl, rfl⟩
  unfold State.voteOn
  split
  · exact voteLeaves_newCall ..
  · dsimp only
    split
    · split
      · exact ⟨rfl, rfl, rfl, rfl, rfl⟩
      · exact hlate _ _
    · split
      · exact voteLeaves_aheadCopy ..
      · exact hlate _ _

/-- A copy taken is reported, and its vote leaves the report alone. -/
theorem voteLeaves_reception {c : Copy} {rest : List Copy} (h : s.vote.inbox = c :: rest) :
    ∃ t, exec .reception s = .next t ∧ VoteLeaves (reported s c rest) t := by
  by_cases hping : c.callType = .ping
  · exact ⟨_, exec_reception_of_ping h hping, .refl _⟩
  · cases hrun : s.mgmt.run with
    | load => exact ⟨_, exec_reception_of_load h hping hrun, voteLeaves_passThrough ..⟩
    | run => exact ⟨_, exec_reception_of_run h hping hrun, voteLeaves_voteOn ..⟩

/-- Settles O11. -/
theorem copyReportedAndPassedInLoad : Obligations.CopyReportedAndPassedInLoad := by
  refine ⟨fun s c rest h => ?reported, fun s c rest h hping => exec_reception_of_ping h hping,
    fun s c rest q h hping hload hq => ?decoded, fun s c rest h hping hload hq => ?noDecode⟩
  case reported =>
    obtain ⟨t, ht, hloc, hinbox, hmonitor, hreach, hclassifier⟩ := voteLeaves_reception h
    exact ⟨t, ht, hloc, hinbox, hmonitor, hreach, hclassifier⟩
  case decoded => rw [exec_reception_of_load h hping hload, hq, State.passThrough_decoded]
  case noDecode => rw [exec_reception_of_load h hping hload, adjustedQuality_noDecode hq, State.passThrough_noDecode]

/-! ### The first copy of a call, and one ahead of it -/

/-- The lowest free call record is the one found. -/
theorem freeCall_eq_some {cs : Tab CallRecord} {k n a : Nat} (hle : a ≤ k) (hlt : k < a + n) (hk : cs.at? k = none)
    (hused : ∀ j, a ≤ j → j < k → (cs.at? j).isSome = true) : freeCall cs n a = some k := by
  induction n generalizing a with
  | zero => omega
  | succ n ih =>
    rw [freeCall]
    by_cases hak : a = k
    · rw [hak, hk]
      rfl
    · have hsome := hused a (Nat.le_refl a) (by omega)
      rw [if_neg (by simpa using Option.isSome_iff_ne_none.mp hsome)]
      exact ih (by omega) (by omega) fun j hj hjk => hused j (by omega) hjk

/-- A call's first copy opens a window in the lowest free record (R91). -/
theorem State.newCall_of_free {c : Copy} {a : Option Nat} {k : Nat} (hlt : k < 48) (hk : s.vote.calls.at? k = none)
    (hused : ∀ j < k, (s.vote.calls.at? j).isSome = true) :
    s.newCall c a =
      openedIn k
        (s.openWindow c a
          { radio := c.radio, tag := c.tag, callType := c.callType, dest := c.dest, seq := c.seq, isOpen := true, deadline := 0
            best := none, copies := 0, endSeen := false, emergencySeen := false, lastActivity := 0, hangDeadline := 0 }) s := by
  have hfree : freeCall s.vote.calls Config.callRecords 0 = some k :=
    freeCall_eq_some (Nat.zero_le k) (by rw [Nat.zero_add]; exact hlt) hk fun j _ hj => hused j hj
  rw [State.newCall, hfree]
  exact State.startWindow_eq_openedIn ..

/-- Settles O12. -/
theorem firstCopyOpensWindow : Obligations.FirstCopyOpensWindow := by
  intro s c rest k h hping hrun hnone hlt hk hused
  have hvote : (reported s c rest).voteOn c (adjustedQuality s c.site c.quality) =
      (reported s c rest).newCall c (adjustedQuality s c.site c.quality) := by
    simp only [State.voteOn, callOf_reported, hnone]
  rw [exec_reception_of_run h hping hrun, hvote, State.newCall_of_free (s := reported s c rest) hlt hk hused]
  rfl

/-- A copy 1 to 127 ahead of its call (R90). -/
theorem State.voteOn_of_ahead {c : Copy} {k : Nat} {r : CallRecord} (hcall : s.callOf c.radio c.tag = some (k, r))
    (hpos : 1 ≤ (c.seq - r.seq).toNat) (hle : (c.seq - r.seq).toNat ≤ 127) (a : Option Nat) :
    s.voteOn c a = s.aheadCopy k c a r := by
  simp only [State.voteOn, hcall]
  rw [if_neg (by omega), if_pos hle]

/-- A window opened by a copy after a vote has closed another is the one it would have opened before. -/
theorem State.openWindow_of_leaves {c : Copy} {rest : List Copy} {v : State} (h : VoteLeaves (reported s c rest) v) (hnow : v.now = s.now) (r : CallRecord) :
    v.openWindow c (adjustedQuality s c.site c.quality) r = windowOpened s c r := by
  obtain ⟨hloc, -⟩ := h
  unfold State.openWindow State.hangTime windowOpened
  rw [hloc, hnow]
  rfl

/-- Settles O16: the window closed first leaves the time and the timing, so that the next one opens as it would have. -/
theorem aheadCopyOpensNextWindow : Obligations.AheadCopyOpensNextWindow := by
  intro s c rest k r h hping hrun hcall hpos hle
  have hcall' : (reported s c rest).callOf c.radio c.tag = some (k, r) := hcall
  have hleaves := voteLeaves_closeWindow k r (reported s c rest)
  have hnow : ((reported s c rest).closeWindow k r).now = s.now := State.closeWindow_now ..
  rw [exec_reception_of_run h hping hrun, State.voteOn_of_ahead hcall' hpos hle, State.aheadCopy]
  refine ⟨fun hclosed => ?_, fun hopen hend => ?_, fun hopen hend j hj hfree hused => ?_⟩
  · rw [if_neg (by rw [hclosed]; decide), State.startWindow_eq_openedIn, State.openWindow_of_leaves (.refl _) rfl]
  · dsimp only
    rw [if_pos hopen, if_neg (by rw [hend]; decide), State.startWindow_eq_openedIn, State.openWindow_of_leaves hleaves hnow,
      State.closeWindow_eq_windowClosed]
  · have hcalls : ((reported s c rest).closeWindow k r).vote.calls = s.vote.calls.erase k := by
      rw [State.closeWindow_eq_windowClosed, windowClosed_calls, callsClosed, if_pos hend]
      rfl
    dsimp only
    rw [if_pos hopen, if_pos hend, State.newCall_of_free hj (by rw [hcalls]; exact hfree) (by rw [hcalls]; exact hused),
      State.openWindow_of_leaves hleaves hnow, State.closeWindow_eq_windowClosed]
    rfl

/-! ### Expiries and STOP -/

theorem exec_windowExpiry_of_record {k : Nat} {r : CallRecord} (hk : s.vote.calls.at? k = some r) :
    exec (.windowExpiry k) s = if r.isOpen = true ∧ r.deadline ≤ s.now then .next (s.closeWindow k r) else .next s := by
  change execWindowExpiry k s = _
  rw [execWindowExpiry, hk]

theorem exec_callHangExpiry_of_record {k : Nat} {r : CallRecord} (hk : s.vote.calls.at? k = some r) :
    exec (.callHangExpiry k) s =
      if r.hangDeadline ≤ s.now then .next ((if r.isOpen then s.closeWindow k r else s).freeRecord k) else .next s := by
  change execCallHangExpiry k s = _
  rw [execCallHangExpiry, hk]

/-- A record freed after its window is closed leaves nothing of it in the call table. -/
theorem State.freeRecord_closeWindow (k : Nat) (r : CallRecord) (s : State) :
    (s.closeWindow k r).freeRecord k = { windowClosed k r s with vote.calls := s.vote.calls.erase k } := by
  have hcalls : (windowClosed k r s).vote.calls.erase k = s.vote.calls.erase k := by
    rw [windowClosed_calls, callsClosed]
    split
    · exact Tab.erase_erase ..
    · exact Tab.erase_insert ..
  rw [State.closeWindow_eq_windowClosed, State.freeRecord, hcalls]

/-- Settles O17. -/
theorem windowAndHangExpiry : Obligations.WindowAndHangExpiry := by
  refine ⟨fun s k r hk => ⟨fun hopen hdue => ?_, fun hnot => ?_, fun hclosed hdue => ?_, fun hopen hdue => ?_, fun hnot => ?_⟩,
    fun s k hk => ⟨?_, ?_⟩⟩
  · rw [exec_windowExpiry_of_record hk, if_pos ⟨hopen, hdue⟩, State.closeWindow_eq_windowClosed]
  · rw [exec_windowExpiry_of_record hk, if_neg]
    rintro ⟨hopen, hdue⟩
    rcases hnot with hclosed | hnot
    · rw [hclosed] at hopen
      cases hopen
    · omega
  · rw [exec_callHangExpiry_of_record hk, if_pos hdue, if_neg (by rw [hclosed]; decide)]
    rfl
  · rw [exec_callHangExpiry_of_record hk, if_pos hdue, if_pos hopen, State.freeRecord_closeWindow]
  · rw [exec_callHangExpiry_of_record hk, if_neg (by omega)]
  · change execWindowExpiry k s = _
    rw [execWindowExpiry, hk]
  · change execCallHangExpiry k s = _
    rw [execCallHangExpiry, hk]

/-- The open windows among some records closed, in the order of the records. -/
def closedAll (rs : Tab CallRecord) (s : State) : State :=
  (rs.filter fun p => p.2.isOpen).foldl (fun u p => windowClosed p.1 p.2 u) s

theorem closedAll_cons (p : Nat × CallRecord) (rs : Tab CallRecord) (s : State) :
    closedAll (p :: rs) s = closedAll rs (if p.2.isOpen then windowClosed p.1 p.2 s else s) := by
  unfold closedAll
  rw [List.filter_cons]
  split <;> rfl

theorem State.closeAll_eq (rs : Tab CallRecord) (s : State) : s.closeAll rs = closedAll rs s := by
  induction rs generalizing s with
  | nil => rfl
  | cons p rs ih =>
    rw [closedAll_cons, ← ih, State.closeAll, List.foldl_cons, State.closeWindow_eq_windowClosed]
    rfl

/-- A record after the windows of its table are closed: freed if END was seen in its own, else with its window CLOSED. -/
def CallRecord.closed? (r : CallRecord) : Option CallRecord :=
  if r.isOpen && r.endSeen then none else some { r with isOpen := false }

theorem CallRecord.closed?_of_closed {r : CallRecord} (h : r.isOpen = false) : r.closed? = some r := by
  obtain ⟨radio, tag, callType, dest, seq, isOpen, deadline, best, copies, endSeen, emergencySeen, lastActivity, hangDeadline⟩ := r
  cases h
  rfl

theorem windowClosed_at? (k j : Nat) {r : CallRecord} (hopen : r.isOpen = true) (s : State) :
    (windowClosed k r s).vote.calls.at? j = if j = k then r.closed? else s.vote.calls.at? j := by
  rw [windowClosed_calls, callsClosed, CallRecord.closed?, hopen, Bool.true_and]
  cases r.endSeen with
  | true => exact Tab.at?_erase ..
  | false => exact Tab.at?_insert ..

/-- The call table after the windows of some records at their places are closed. -/
theorem closedAll_at? {rs : Tab CallRecord} (hrs : (rs.map (·.1)).Nodup) (hat : ∀ p ∈ rs, s.vote.calls.at? p.1 = some p.2) (k : Nat) :
    (closedAll rs s).vote.calls.at? k = ((rs.at? k).map CallRecord.closed?).getD (s.vote.calls.at? k) := by
  induction rs generalizing s with
  | nil => rfl
  | cons p rs ih =>
    obtain ⟨i, r⟩ := p
    obtain ⟨hi, hrs⟩ := List.nodup_cons.mp hrs
    have hne : ∀ q ∈ rs, q.1 ≠ i := fun q hq heq => hi (List.mem_map.mpr ⟨q, hq, heq⟩)
    have hnone : Tab.at? rs i = none := by
      cases hsome : Tab.at? rs i with
      | none => rfl
      | some v => exact absurd rfl (hne _ (Tab.mem_of_at? hsome))
    have hstep : ∀ j, (if r.isOpen then windowClosed i r s else s).vote.calls.at? j =
        if j = i then r.closed? else s.vote.calls.at? j := by
      intro j
      cases hopen : r.isOpen with
      | true => exact windowClosed_at? i j hopen s
      | false =>
        rw [if_neg Bool.false_ne_true]
        by_cases hji : j = i
        · rw [if_pos hji, hji, CallRecord.closed?_of_closed hopen]
          exact hat (i, r) List.mem_cons_self
        · rw [if_neg hji]
    rw [closedAll_cons, ih hrs fun q hq => by
      rw [hstep, if_neg (hne q hq)]
      exact hat q (List.mem_cons_of_mem _ hq), hstep]
    by_cases hki : k = i
    · subst hki
      simp [hnone, Tab.at?]
    · simp [Tab.at?, hki, Ne.symm hki]

/-- Settles O18: each window closed leaves the other records where they were. -/
theorem stopClosesOpenWindows : Obligations.StopClosesOpenWindows := by
  intro s hstop hs
  refine ⟨?_, fun k => ?_⟩
  · change execStopVoteClose s = _
    rw [execStopVoteClose, if_pos hstop, State.closeAll_eq]
    rfl
  · have hclosed := closedAll_at? (s := { s with vote.stopReport := false }) (Tab.keys_nodup hs)
      (fun p hp => Tab.at?_of_mem hs hp) k
    refine hclosed.trans ?_
    change ((s.vote.calls.at? k).map CallRecord.closed?).getD (s.vote.calls.at? k) = _
    cases s.vote.calls.at? k <;> rfl

end Sys2Proof.Machine

/-! Chapters 1 and 2 at an entry: candidate lists, slots for new entries, the roam decision, reports, and the audit of a settled entry. -/

namespace Sys2Proof.Machine

variable {s t u : State}

/-! ### Candidate lists -/

theorem effective_eq (s : State) (e : Entry) (c : Candidate) : effective s e c = effScore (s.policy e) s.loc.epoch c := rfl

theorem State.adjusted_eq (s : State) (site quality : Nat) : s.adjusted site quality = adjustedQuality s site quality :=
  rawQuality_map_adjust s site quality

theorem registeredQuality_eq (s : State) (r : Registration) :
    adjust (s.site r.site).cfg.offset (registrationQuality r.quality) = registeredQuality s r := rfl

/-- The order of the victims is strict. -/
theorem rather_asymm {p : ClassPolicy} {now : Epoch} {c d : Candidate} (h : rather p now c d = true) : rather p now d c = false := by
  simp only [rather, Bool.or_eq_true, Bool.and_eq_true, decide_eq_true_eq, Bool.or_eq_false_iff, Bool.and_eq_false_iff,
    decide_eq_false_iff_not] at h ⊢
  omega

theorem not_uses_iff_replaceable (e : Entry) (c : Candidate) : (!e.uses c.site) = true ↔ Replaceable e c := by
  cases hh : e.handover <;> simp [Entry.uses, Replaceable, hh]

/-- The victim of R31 is the one the model picks. -/
theorem victim_of_spec {e : Entry} {v : Candidate} (h : Victim s e v) :
    victim (s.policy e) s.loc.epoch e.uses e.cands = some v := by
  obtain ⟨hmem, hreplaceable, hbest⟩ := h
  have hrather : ∀ c ∈ e.cands.filter fun c => !e.uses c.site, c ≠ v → rather (s.policy e) s.loc.epoch v c = true := by
    intro c hc hne
    obtain ⟨hc, hkept⟩ := List.mem_filter.mp hc
    have hless := hbest c hc ((not_uses_iff_replaceable e c).mp hkept) hne
    simp only [effective_eq] at hless
    simp only [rather, Bool.or_eq_true, Bool.and_eq_true, decide_eq_true_eq]
    omega
  exact foldl_preferred (rather (s.policy e) s.loc.epoch) _ (fun _ => rfl) (fun _ _ => rfl) _ v
    (List.mem_filter.mpr ⟨hmem, (not_uses_iff_replaceable e v).mpr hreplaceable⟩) (fun c hc hne => rather_asymm (hrather c hc hne)) hrather

/-- The list after a report is the one R29 to R31 give. -/
theorem updateCands_of_spec {e : Entry} {site : Nat} {a : Option Nat} {force : Bool} {cs : List Candidate}
    (h : CandidatesAfter s e site a force cs) : updateCands (s.policy e) s.loc.epoch e.uses force site a e.cands = cs := by
  unfold CandidatesAfter at h
  unfold updateCands
  by_cases hheld : (candOf site e.cands).isSome = true
  · rw [if_pos hheld] at h ⊢
    exact h.symm
  · rw [if_neg hheld] at h ⊢
    cases a with
    | none => exact h.symm
    | some q =>
      dsimp only at h ⊢
      unfold addCand
      by_cases hroom : e.cands.length < 5
      · rw [if_pos hroom] at h
        rw [if_pos hroom]
        exact h.symm
      · rw [if_neg hroom] at h
        obtain ⟨v, hv, rfl⟩ := h
        rw [if_neg hroom, victim_of_spec hv]
        refine ite_congr (propext ?_) (fun _ => rfl) fun _ => rfl
        rw [Bool.or_eq_true, decide_eq_true_eq]
        exact Iff.rfl

/-- The candidate update of a report writes the list R29 to R31 give. -/
theorem State.scoreEntry_of_spec {k site : Nat} {e : Entry} {a : Option Nat} {force : Bool} {cs : List Candidate}
    (hk : s.entry k = some e) (h : CandidatesAfter s e site a force cs) :
    s.scoreEntry k site a force = s.writeEntry k (some { e with cands := cs }) := by
  rw [State.scoreEntry, State.modifyEntry_of_entry hk, updateCands_of_spec h]

/-! ### The roam decision -/

theorem State.siteUp_iff {x : Nat} : s.siteUp x = true ↔ (s.site x).state = .up := decide_eq_true_iff

theorem State.eligible_iff (e : Entry) (c : Candidate) : s.eligible e c = true ↔ EligibleTarget s e c := by
  unfold State.eligible EligibleTarget
  cases hf : e.failed <;> simp [State.siteUp, effective_eq, and_assoc]

/-- The best target of R34 is the one the model picks. -/
theorem State.bestTarget_of_spec {e : Entry} {b : Candidate} (h : BestTarget s e b) : s.bestTarget e = some b := by
  obtain ⟨hmem, heligible, hbest⟩ := h
  let better : Candidate → Candidate → Bool := fun c d =>
    s.decisionValue e d < s.decisionValue e c || (s.decisionValue e d == s.decisionValue e c && decide (c.site < d.site))
  have hless : ∀ c ∈ e.cands.filter fun c => s.eligible e c, c ≠ b →
      s.decisionValue e c < s.decisionValue e b ∨ (s.decisionValue e c = s.decisionValue e b ∧ b.site < c.site) := by
    intro c hc hne
    obtain ⟨hc, heligible⟩ := List.mem_filter.mp hc
    exact hbest c hc ((s.eligible_iff e c).mp heligible) hne
  refine foldl_preferred better _ (fun _ => rfl) (fun _ _ => rfl) _ b
    (List.mem_filter.mpr ⟨hmem, (s.eligible_iff e b).mpr heligible⟩) (fun c hc hne => ?_) fun c hc hne => ?_
  · have := hless c hc hne
    simp only [better, Bool.or_eq_false_iff, decide_eq_false_iff_not, Bool.and_eq_false_iff, beq_eq_false_iff_ne]
    omega
  · simpa [better] using hless c hc hne

theorem State.bestTarget_none {e : Entry} (h : ∀ c ∈ e.cands, ¬EligibleTarget s e c) : s.bestTarget e = none := by
  have hnone : (e.cands.filter fun c => s.eligible e c) = [] :=
    List.filter_eq_nil_iff.mpr fun c hc heligible => h c hc ((s.eligible_iff e c).mp heligible)
  rw [State.bestTarget, hnone]
  rfl

theorem State.takesTarget_of_attached {e : Entry} (hs : e.state = .attached) (b : Candidate) :
    s.takesTarget e b = true ↔ AttachedTakes s e b := by
  have hvalue : ∀ c, decision s e c = s.decisionValue e c := fun _ => rfl
  cases hv : candOf e.serving e.cands <;> simp [State.takesTarget, AttachedTakes, hs, hv, hvalue, and_assoc]

/-- A lane that can take a frame admits it. -/
theorem State.controlVerdict_of_takes {x : Nat} (h : LaneTakes s x) : s.controlVerdict x = .admitted := by
  obtain ⟨hopen, hroom, hpool⟩ := h
  have hlane : s.laneOpen x = true := by unfold State.laneOpen; rcases hopen with h | h | h <;> rw [h]
  rw [State.controlVerdict_of_open hlane, if_pos ⟨hroom, hpool⟩]

/-- The lane of an UP site that cannot take a frame has no room. -/
theorem State.controlVerdict_of_full {x : Nat} (hup : (s.site x).state = .up) (h : ¬LaneTakes s x) : s.controlVerdict x = .noRoom := by
  have hlane : s.laneOpen x = true := by rw [State.laneOpen, hup]
  rw [State.controlVerdict_of_open hlane, if_neg fun hroom => h ⟨.inr (.inl hup), hroom⟩]

theorem State.offerControl_of_takes {x : Nat} (h : LaneTakes s x) (f : ControlFrame) :
    s.offerControl x f = (s.pushControl x f, .admitted) := by
  unfold State.offerControl
  rw [State.controlVerdict_of_takes h]

theorem State.offerControl_of_full {x : Nat} (hup : (s.site x).state = .up) (h : ¬LaneTakes s x) (f : ControlFrame) :
    s.offerControl x f = (refusedAtLane x s, .noRoom) := by
  unfold State.offerControl
  rw [State.controlVerdict_of_full hup h]
  rfl

/-- A directive to an UP site whose lane takes it joins the lane. -/
theorem State.issueDirective_of_takes {d : Directive} (hup : (s.site d.site).state = .up) (h : LaneTakes s d.site) :
    s.issueDirective d = s.pushControl d.site (.directive d) := by
  rw [State.issueDirective, if_pos (State.siteUp_iff.mpr hup), State.offerControl_of_takes h]

theorem State.startHandover_of_takes {x : Nat} (hup : (s.site x).state = .up) (h : LaneTakes s x) (k : Nat) (e : Entry) (origin : Origin) :
    s.startHandover k e x origin = (handoverStarted k e x origin e.cands s, true) := by
  have hserve := State.issueDirective_of_takes (d := directiveOf e x .serve e.serving (e.number + 1)) hup h
  unfold State.startHandover handoverStarted
  dsimp only
  rw [hserve, State.offerControl_of_takes h]
  rfl

theorem State.startHandover_of_full {x : Nat} (hup : (s.site x).state = .up) (h : ¬LaneTakes s x) (k : Nat) (e : Entry) (origin : Origin) :
    s.startHandover k e x origin = (refusedAtLane x s, false) := by
  unfold State.startHandover
  dsimp only
  rw [State.offerControl_of_full hup h]

/-- A best target taken: the handover starts, or its SERVE is refused (R34, R50). -/
theorem State.roamDecision_of_taken {k : Nat} {e : Entry} {b : Candidate} (hk : s.entry k = some e) (hb : BestTarget s e b)
    (htakes : s.takesTarget e b = true) : s.roamDecision k = (s.startHandover k e b.site .directed).1 := by
  simp only [State.roamDecision, hk, State.bestTarget_of_spec hb]
  exact if_pos htakes

theorem State.roamDecision_of_refused {k : Nat} {e : Entry} {b : Candidate} (hk : s.entry k = some e) (hb : BestTarget s e b)
    (htakes : ¬s.takesTarget e b = true) : s.roamDecision k = s := by
  simp only [State.roamDecision, hk, State.bestTarget_of_spec hb]
  exact if_neg htakes

/-- Settles O22: the fold over the candidates is the best target of R34. -/
theorem roamDecisionTaken : Obligations.RoamDecisionTaken := by
  refine fun s k e hk => ⟨State.roamDecision_eq_self hk, fun hnone => ?_, fun b hb => ⟨fun hattached hnot => ?_, fun hstate => ?_⟩⟩
  · simp only [State.roamDecision, hk, State.bestTarget_none hnone]
  · exact State.roamDecision_of_refused hk hb ((not_congr (s.takesTarget_of_attached hattached b)).mpr hnot)
  · have hup : (s.site b.site).state = .up := hb.2.1.2.1
    have htakes : s.takesTarget e b = true := by
      rcases hstate with hshadow | ⟨hattached, htakes⟩
      · rw [State.takesTarget, hshadow]
      · exact (s.takesTarget_of_attached hattached b).mpr htakes
    refine ⟨fun hlane => ?_, fun hlane => ?_⟩
    · rw [State.roamDecision_of_taken hk hb htakes, State.startHandover_of_takes hup hlane]
    · rw [State.roamDecision_of_taken hk hb htakes, State.startHandover_of_full hup hlane]

/-! ### Slots for new entries -/

/-- An entry that eviction may free: its slot, and its newest heard age. -/
def evictableSlots (now : Epoch) (entries : Tab Entry) : List (Nat × Nat) :=
  (entries.filter fun p => decide (p.2.state = .unattached) && !p.2.emergency).map fun p => (p.1, newestHeardAge now p.2)

/-- `q` is rather evicted than `p` (R10): the greater newest heard age, then the lower slot. -/
def evictedBefore (q p : Nat × Nat) : Bool := p.2 < q.2 || (decide (p.2 = q.2) && decide (q.1 < p.1))

/-- The choice that `evictee` folds over the evictableSlots entries. -/
def evictChoice (v : Option (Nat × Nat)) (q : Nat × Nat) : Option (Nat × Nat) :=
  match v with
  | none => some q
  | some p => if evictedBefore q p then some q else some p

theorem evictee_eq (now : Epoch) (entries : Tab Entry) :
    evictee now entries = ((evictableSlots now entries).foldl evictChoice none).map (·.1) := by
  unfold evictee evictableSlots
  rw [List.foldl_map]
  congr 2
  funext v p
  rcases v with _ | ⟨k, b⟩ <;> rfl

/-- The entry evicted is the one R10 names. -/
theorem evictee_of_spec {k : Nat} {v : Entry} (hs : s.loc.entries.sorted = true) (hk : s.entry k = some v)
    (hstate : v.state = .unattached) (hemergency : v.emergency = false)
    (hbest : ∀ j w, s.entry j = some w → w.state = .unattached → w.emergency = false → j ≠ k →
      newestHeardAge s.loc.epoch w < newestHeardAge s.loc.epoch v ∨
        (newestHeardAge s.loc.epoch w = newestHeardAge s.loc.epoch v ∧ k < j)) :
    evictee s.loc.epoch s.loc.entries = some k := by
  have hless : ∀ q ∈ evictableSlots s.loc.epoch s.loc.entries, q ≠ (k, newestHeardAge s.loc.epoch v) →
      q.2 < newestHeardAge s.loc.epoch v ∨ (q.2 = newestHeardAge s.loc.epoch v ∧ k < q.1) := by
    intro q hq hne
    obtain ⟨⟨j, w⟩, hp, rfl⟩ := List.mem_map.mp hq
    obtain ⟨hp, hevictable⟩ := List.mem_filter.mp hp
    simp only [Bool.and_eq_true, decide_eq_true_eq, Bool.not_eq_true'] at hevictable
    have hj : s.entry j = some w := Tab.at?_of_mem hs hp
    refine hbest j w hj hevictable.1 hevictable.2 fun hjk => hne ?_
    subst hjk
    cases hk.symm.trans hj
    rfl
  have hmem : (k, newestHeardAge s.loc.epoch v) ∈ evictableSlots s.loc.epoch s.loc.entries :=
    List.mem_map.mpr ⟨(k, v), List.mem_filter.mpr ⟨Tab.mem_of_at? hk, by simp [hstate, hemergency]⟩, rfl⟩
  have hchoice : (evictableSlots s.loc.epoch s.loc.entries).foldl evictChoice none = some (k, newestHeardAge s.loc.epoch v) := by
    refine foldl_preferred evictedBefore evictChoice (fun _ => rfl) (fun _ _ => rfl) _ _ hmem (fun q hq hne => ?_) fun q hq hne => ?_
    · have := hless q hq hne
      simp only [evictedBefore, Bool.or_eq_false_iff, decide_eq_false_iff_not, Bool.and_eq_false_iff]
      omega
    · have := hless q hq hne
      simp only [evictedBefore, Bool.or_eq_true, decide_eq_true_eq, Bool.and_eq_true]
      omega
  rw [evictee_eq, hchoice]
  rfl

/-- A slot had for a new entry is obtained, by an eviction if need be (R10). -/
theorem State.obtainSlot_of_spec {k : Nat} {evicts : Bool} (h : SlotFor s k evicts) :
    s.obtainSlot = some (k, slotTaken k evicts s) ∧ (slotTaken k evicts s).entry k = none := by
  cases evicts with
  | false =>
    obtain ⟨hlt, hk, hused⟩ := h
    have hfree : freeSlot s.loc.entries Config.radioSlots 0 = some k :=
      freeSlot_eq _ _ 0 k (Nat.zero_le k) (by rw [Nat.zero_add]; exact hlt) hk fun j _ hj => hused j hj
    exact ⟨by rw [State.obtainSlot, hfree]; rfl, hk⟩
  | true =>
    obtain ⟨hs, hfull, v, hk, hstate, hemergency, hbest⟩ := h
    have hnone : freeSlot s.loc.entries Config.radioSlots 0 = none := freeSlot_none _ _ 0 fun j _ hj => hfull j (by simpa using hj)
    refine ⟨?_, State.entry_writeEntry_self k none s⟩
    rw [State.obtainSlot, hnone]
    dsimp only
    rw [evictee_of_spec hs hk hstate hemergency hbest]
    rfl

theorem State.obtainSlot_none (h : NoSlot s) : s.obtainSlot = none := by
  obtain ⟨hfull, hnot⟩ := h
  have hnone : freeSlot s.loc.entries Config.radioSlots 0 = none := freeSlot_none _ _ 0 fun j _ hj => hfull j (by simpa using hj)
  have hempty : evictableSlots s.loc.epoch s.loc.entries = [] := by
    refine List.map_eq_nil_iff.mpr (List.filter_eq_nil_iff.mpr fun p hp => ?_)
    simpa using hnot p hp
  rw [State.obtainSlot, hnone]
  dsimp only
  rw [evictee_eq, hempty]
  rfl

/-- An entry created goes to the slot obtained. -/
theorem State.createEntry_of_spec {k : Nat} {evicts : Bool} (h : SlotFor s k evicts) (radio : RadioId) (site a : Nat) :
    s.createEntry radio site a =
      some (k, (slotTaken k evicts s).writeEntry k (some (createdEntry s radio site a))) := by
  rw [State.createEntry, (State.obtainSlot_of_spec h).1]
  dsimp only
  cases evicts <;> rfl

theorem State.createEntry_none (h : NoSlot s) (radio : RadioId) (site a : Nat) : s.createEntry radio site a = none := by
  rw [State.createEntry, State.obtainSlot_none h]

/-- A new entry that is UNATTACHED counts as a free slot but for its emergency flag. -/
theorem alike_created (s : State) (radio : RadioId) (site a : Nat) : Alike none (some (createdEntry s radio site a)) :=
  ⟨rfl, rfl, rfl, rfl⟩

/-! ### What is taken in LOAD and from an OFF site -/

theorem State.intake_of_load (h : s.mgmt.run = .load) (site : Nat) (f : State → State) : s.intake site f = s := if_pos h

theorem State.intake_of_off (h : s.mgmt.run = .run) {site : Nat} (hoff : (s.site site).state = .off) (f : State → State) :
    s.intake site f = s.count (.global .untrackedReports) := by
  rw [State.intake, if_neg (by rw [h]; decide), if_pos hoff]

theorem State.intake_of_run (h : s.mgmt.run = .run) {site : Nat} (hoff : (s.site site).state ≠ .off) (f : State → State) :
    s.intake site f = f s := by
  rw [State.intake, if_neg (by rw [h]; decide), if_neg hoff]

theorem exec_report_of_cons {r : Report} {rest : List Report} (h : s.loc.reports = r :: rest) :
    exec .report s =
      .next (({ s with loc.reports := rest } : State).locEvent fun t => t.intake r.site fun t => t.applyReport r) := by
  change execReport s = _
  rw [execReport, h]

theorem exec_registration_of_cons {r : Registration} {rest : List LocationFrame} (h : s.loc.frames = .registration r :: rest) :
    exec .registration s =
      .next ((frameTaken s rest).locEvent fun t => t.intake r.site fun t => t.applyRegistration r) := by
  change execRegistration s = _
  rw [execRegistration, h]
  rfl

theorem exec_directiveAck_of_cons {a : DirectiveAck} {rest : List LocationFrame} (h : s.loc.frames = .ack a :: rest) :
    exec .directiveAck s = .next ((frameTaken s rest).locEvent fun t => t.intake a.site fun t => t.applyAck a) := by
  change execDirectiveAck s = _
  rw [execDirectiveAck, h]
  rfl

/-- An event discarded in LOAD changes nothing. -/
theorem State.locEvent_of_load (h : s.mgmt.run = .load) (site : Nat) (f : State → State) :
    s.locEvent (fun t => t.intake site f) = s := by
  rw [State.locEvent_eq, State.intake_of_load h]
  exact withConditions_of_entries_eq rfl

/-- An event from an OFF site is only counted. -/
theorem State.locEvent_of_off (h : s.mgmt.run = .run) {site : Nat} (hoff : (s.site site).state = .off) (f : State → State) :
    s.locEvent (fun t => t.intake site f) = s.count (.global .untrackedReports) := by
  rw [State.locEvent_eq, State.intake_of_off h hoff]
  exact withConditions_of_entries_eq rfl

/-- Settles O19. -/
theorem loadAndOffDiscards : Obligations.LoadAndOffDiscards := by
  refine fun s => ⟨fun r rest h => ?_, fun r rest h => ?_, fun a rest h => ?_⟩
  · rw [exec_report_of_cons h]
    exact ⟨fun hload => congrArg _ (State.locEvent_of_load (s := { s with loc.reports := rest }) hload ..),
      fun hrun hoff => congrArg _ (State.locEvent_of_off (s := { s with loc.reports := rest }) hrun hoff _)⟩
  · rw [exec_registration_of_cons h]
    exact ⟨fun hload => congrArg _ (State.locEvent_of_load (s := frameTaken s rest) hload ..),
      fun hrun hoff => congrArg _ (State.locEvent_of_off (s := frameTaken s rest) hrun hoff _)⟩
  · rw [exec_directiveAck_of_cons h]
    exact ⟨fun hload => congrArg _ (State.locEvent_of_load (s := frameTaken s rest) hload ..),
      fun hrun hoff => congrArg _ (State.locEvent_of_off (s := frameTaken s rest) hrun hoff _)⟩

/-! ### Reports -/

/-- REPORT in RUN, from a site that is not OFF. -/
theorem exec_report_of_run {r : Report} {rest : List Report} (h : s.loc.reports = r :: rest) (hrun : s.mgmt.run = .run)
    (hoff : (s.site r.site).state ≠ .off) :
    exec .report s = .next (withConditions s (({ s with loc.reports := rest } : State).applyReport r)) := by
  rw [exec_report_of_cons h, State.locEvent_eq, State.intake_of_run (s := { s with loc.reports := rest }) hrun hoff]
  rfl

/-- A report of a radio with no entry (R8). -/
theorem State.applyReport_of_unknown {r : Report} (h : s.lookup r.radio = none) :
    s.applyReport r =
      match adjustedQuality s r.site r.quality with
      | none => s
      | some a =>
        match s.createEntry r.radio r.site a with
        | some (slot, s1) => if r.emergency then s1.setEmergency slot else s1
        | none => s.count (.global .untrackedReports) := by
  simp only [State.applyReport, h, State.adjusted_eq] <;> rfl

theorem State.setEmergency_of_clear {k : Nat} {e : Entry} (hk : s.entry k = some e) (h : e.emergency = false) :
    s.setEmergency k =
      (s.writeEntry k (some { e with emergency := true })).notify .emergency e.radio e.serving e.serving e.talkgroup .none := by
  simp only [State.setEmergency, hk, h]
  rfl

theorem State.setEmergency_of_set {k : Nat} {e : Entry} (hk : s.entry k = some e) (h : e.emergency = true) : s.setEmergency k = s := by
  simp only [State.setEmergency, hk, h]
  rfl


end Sys2Proof.Machine

/-! What reports, abandons and audit visits do to an entry. -/

namespace Sys2Proof.Machine

variable {s t u : State}

/-! ### A report that creates an entry -/

theorem adjustedQuality_isSome {site quality : Nat} (h : quality ≠ 255) : ∃ q, adjustedQuality s site quality = some q :=
  ⟨_, if_neg h⟩

/-- A decoded report of a radio with no entry, where a slot can be had. -/
theorem State.applyReport_creates {r : Report} (h : s.lookup r.radio = none) {q k : Nat} {evicts : Bool}
    (hq : adjustedQuality s r.site r.quality = some q) (hslot : SlotFor s k evicts) :
    s.applyReport r =
      (let t := (slotTaken k evicts s).writeEntry k (some { createdEntry s r.radio r.site q with emergency := r.emergency })
        if r.emergency then t.offerCore (noticeOf s .emergency r.radio 0 0 0 .none) else t) := by
  have hfree := (State.obtainSlot_of_spec hslot).2
  rw [State.applyReport_of_unknown h, hq]
  dsimp only
  rw [State.createEntry_of_spec hslot]
  dsimp only
  cases r.emergency with
  | false => rfl
  | true =>
    rw [if_pos rfl, if_pos rfl, State.setEmergency_of_clear (State.entry_writeEntry_self ..) rfl,
      State.writeEntry_writeEntry hfree (alike_created s r.radio r.site q)]
    cases evicts <;> rfl

theorem State.applyReport_noSlot {r : Report} (h : s.lookup r.radio = none) (hq : r.quality ≠ 255) (hslot : NoSlot s) :
    s.applyReport r = s.count (.global .untrackedReports) := by
  obtain ⟨q, hq⟩ := adjustedQuality_isSome (s := s) (site := r.site) hq
  rw [State.applyReport_of_unknown h, hq]
  dsimp only
  rw [State.createEntry_none hslot]

theorem State.applyReport_noDecode {r : Report} (h : s.lookup r.radio = none) (hq : r.quality = 255) : s.applyReport r = s := by
  rw [State.applyReport_of_unknown h, adjustedQuality_noDecode hq]

/-- A record of the range table holds a radio (R21). -/
def RangeHolds (ranges : Tab ClassRange) (radio : RadioId) (j : Nat) : Prop :=
  (ranges.atD j ClassRange.default).valid = true ∧ (ranges.atD j ClassRange.default).first ≤ radio ∧
    radio ≤ (ranges.atD j ClassRange.default).last

/-- The class a record gives a radio. -/
def rangeClass (ranges : Tab ClassRange) (radio : RadioId) (j : Nat) : Option RadioClass :=
  if (ranges.atD j ClassRange.default).valid && decide ((ranges.atD j ClassRange.default).first ≤ radio) &&
      decide (radio ≤ (ranges.atD j ClassRange.default).last) then
    some (ranges.atD j ClassRange.default).cls
  else none

theorem classOf_eq (ranges : Tab ClassRange) (radio : RadioId) :
    classOf ranges radio = ((List.range 16).findSome? (rangeClass ranges radio)).getD .ground := rfl

theorem rangeClass_of_holds {ranges : Tab ClassRange} {radio : RadioId} {j : Nat} (h : RangeHolds ranges radio j) :
    rangeClass ranges radio j = some (ranges.atD j ClassRange.default).cls := by
  obtain ⟨hvalid, hfirst, hlast⟩ := h
  simp [rangeClass, hvalid, hfirst, hlast]

theorem rangeClass_of_not_holds {ranges : Tab ClassRange} {radio : RadioId} {j : Nat} (h : ¬RangeHolds ranges radio j) :
    rangeClass ranges radio j = none := by
  refine if_neg fun hif => h ?_
  simp only [Bool.and_eq_true, decide_eq_true_eq] at hif
  exact ⟨hif.1.1, hif.1.2, hif.2⟩

/-- The first of the numbers to which a function gives a value. -/
theorem findSome?_range_of_least {α : Type} {f : Nat → Option α} {n k : Nat} {a : α} (hk : k < n) (hfk : f k = some a)
    (hless : ∀ j < k, f j = none) : (List.range n).findSome? f = some a := by
  rw [List.findSome?_eq_some_iff]
  refine ⟨List.range k, k, (List.range (n - k - 1)).map fun i => k + (i + 1), ?_, hfk, fun j hj => hless j (List.mem_range.mp hj)⟩
  have hsplit : n = k + (n - k - 1 + 1) := by omega
  conv => lhs; rw [hsplit, List.range_add, List.range_succ_eq_map]
  simp

theorem classOf_of_least {ranges : Tab ClassRange} {radio : RadioId} {k : Nat} (hk : k < 16) (hholds : RangeHolds ranges radio k)
    (hless : ∀ j < k, ¬RangeHolds ranges radio j) : classOf ranges radio = (ranges.atD k ClassRange.default).cls := by
  rw [classOf_eq, findSome?_range_of_least hk (rangeClass_of_holds hholds) fun j hj => rangeClass_of_not_holds (hless j hj)]
  rfl

theorem classOf_of_none {ranges : Tab ClassRange} {radio : RadioId} (h : ∀ k < 16, ¬RangeHolds ranges radio k) :
    classOf ranges radio = .ground := by
  have hnone : (List.range 16).findSome? (rangeClass ranges radio) = none :=
    List.findSome?_eq_none_iff.mpr fun j hj => rangeClass_of_not_holds (h j (List.mem_range.mp hj))
  rw [classOf_eq, hnone]
  rfl

/-- Settles O20. -/
theorem reportCreatesEntry : Obligations.ReportCreatesEntry := by
  refine ⟨fun s r rest h hrun hoff hnone => ?_, fun ranges radio => ⟨fun k hk hholds hless => classOf_of_least hk hholds hless,
    fun hnone => classOf_of_none hnone⟩⟩
  have hnone' : ({ s with loc.reports := rest } : State).lookup r.radio = none := hnone
  rw [exec_report_of_run h hrun hoff]
  refine ⟨fun q k evicts hq hslot => ?_, fun hq hslot => ?_, fun hq => ?_⟩
  · rw [State.applyReport_creates (s := { s with loc.reports := rest }) hnone hq hslot]
    rfl
  · rw [State.applyReport_noSlot (s := { s with loc.reports := rest }) hnone hq hslot]
    exact congrArg _ (withConditions_of_entries_eq rfl)
  · rw [State.applyReport_noDecode (s := { s with loc.reports := rest }) hnone hq]
    exact congrArg _ (withConditions_of_entries_eq rfl)

/-! ### A report applied to an entry -/

theorem State.entry_offerCore (f : CoreFrame) (k : Nat) (s : State) : (s.offerCore f).entry k = s.entry k :=
  State.entry_congr (State.offerCore_loc f s) k

theorem candidatesAfter_congr {e e' : Entry} (hloc : t.loc.epoch = s.loc.epoch) (hpolicy : t.loc.policies = s.loc.policies)
    (he : e'.cls = e.cls ∧ e'.cands = e.cands ∧ e'.serving = e.serving ∧ e'.handover = e.handover) {site : Nat} {a : Option Nat}
    {force : Bool} {cs : List Candidate} (h : CandidatesAfter s e site a force cs) :
    updateCands (t.policy e') t.loc.epoch e'.uses force site a e'.cands = cs := by
  obtain ⟨hcls, hcands, hserving, hhandover⟩ := he
  have huses : e'.uses = e.uses := by unfold Entry.uses; rw [hserving, hhandover]
  rw [State.policy, hpolicy, hcls, hloc, huses, hcands]
  exact updateCands_of_spec h

/-- An entry that leaves SHADOW counts as before. -/
theorem alike_recovered {e f : Entry} (h : e.state = .shadow) (hf : f.state = .attached) (hserving : f.serving = e.serving)
    (htalkgroup : f.talkgroup = e.talkgroup) (hemergency : f.emergency = e.emergency) : Alike (some e) (some f) :=
  Alike.of_entry (by unfold Entry.sites; rw [h, hf, hserving]) htalkgroup.symm hemergency.symm (by simp [h, hf])

/-- The first step of a report: the emergency flag, written with the notice of its rise (R13, R25). -/
theorem State.emergencyStep {k : Nat} {e : Entry} (hk : s.entry k = some e) (emergency : Bool) (n : Entry)
    (halike : Alike (some { e with emergency := e.emergency || emergency }) (some n)) :
    (if emergency then s.setEmergency k else s).writeEntry k (some n) =
      (if emergency && !e.emergency then
        (s.writeEntry k (some n)).offerCore (noticeOf s .emergency e.radio e.serving e.serving e.talkgroup .none)
      else s.writeEntry k (some n)) := by
  cases emergency with
  | false => rfl
  | true =>
    rw [if_pos rfl, Bool.true_and]
    cases hemergency : e.emergency with
    | true => rw [State.setEmergency_of_set hk hemergency]; rfl
    | false =>
      have hrisen : Alike (some { e with emergency := true }) (some n) := by rwa [hemergency] at halike
      rw [State.setEmergency_of_clear hk hemergency, State.notify, ← State.writeEntry_offerCore,
        State.writeEntry_writeEntry_alike hrisen]
      rfl

/-- What the first step of a report leaves: the entry with its flag, and all that the next steps read. -/
theorem State.emergencyStep_frame {k : Nat} {e : Entry} (hk : s.entry k = some e) (emergency : Bool) :
    let s1 := if emergency then s.setEmergency k else s
    s1.entry k = some { e with emergency := e.emergency || emergency } ∧ s1.loc.epoch = s.loc.epoch ∧
      s1.loc.policies = s.loc.policies ∧ s1.monitor = s.monitor := by
  intro s1
  have hset : emergency = true → e.emergency = false →
      s1 = (s.writeEntry k (some { e with emergency := true })).notify .emergency e.radio e.serving e.serving e.talkgroup .none :=
    fun h hclear => (if_pos h).trans (State.setEmergency_of_clear hk hclear)
  have hkept : emergency = false ∨ e.emergency = true → s1 = s := by
    rintro (h | h)
    · exact if_neg (by rw [h]; decide)
    · refine (congrArg (fun u => if emergency then u else s) (State.setEmergency_of_set hk h)).trans (ite_self s)
  by_cases hsame : emergency = false ∨ e.emergency = true
  · have hflag : (e.emergency || emergency) = e.emergency := by rcases hsame with h | h <;> simp [h]
    rw [hkept hsame, hflag]
    exact ⟨hk, rfl, rfl, rfl⟩
  · rw [not_or, Bool.not_eq_false, Bool.not_eq_true] at hsame
    have hflag : (e.emergency || emergency) = true := by simp [hsame.1]
    rw [hset hsame.1 hsame.2, hflag]
    refine ⟨?_, by simp, by simp, by simp⟩
    rw [State.notify, State.entry_offerCore, State.entry_writeEntry_self]

/-- The recovery rule at an entry (R40). -/
theorem State.recover_of_entry {k : Nat} {e : Entry} (hk : s.entry k = some e) (site : Nat) (decoded : Bool) :
    s.recover k site decoded =
      if e.state = .shadow ∧ e.serving = site ∧ decoded = true ∧ s.siteUp site = true then
        (s.writeEntry k (some { e with state := .attached })).notify .recovered e.radio site site e.talkgroup .none
      else s := by
  simp only [State.recover, hk]

theorem adjustedQuality_isSome_iff (s : State) (site quality : Nat) :
    (adjustedQuality s site quality).isSome = true ↔ quality ≠ 255 := by
  unfold adjustedQuality
  split <;> simp [*]

/-- The rule by which a report ends SHADOW (R40). -/
def RecoversBy (s : State) (e : Entry) (r : Report) : Prop :=
  e.state = .shadow ∧ e.serving = r.site ∧ r.quality ≠ 255 ∧ (s.site r.site).state = .up

/-- The later steps of a report: the candidate update and the recovery are one write (R25, R40). -/
theorem State.scoreEntry_recover {k : Nat} {e : Entry} {r : Report} {cs : List Candidate} (hk : s.entry k = some e)
    (hcs : updateCands (s.policy e) s.loc.epoch e.uses false r.site (adjustedQuality s r.site r.quality) e.cands = cs) :
    let v := (s.scoreEntry k r.site (s.adjusted r.site r.quality) false).recover k r.site (s.adjusted r.site r.quality).isSome
    (RecoversBy s e r →
      v = (s.writeEntry k (some { e with cands := cs, state := .attached })).offerCore
        (noticeOf s .recovered e.radio r.site r.site e.talkgroup .none)) ∧
    (¬RecoversBy s e r → v = s.writeEntry k (some { e with cands := cs })) := by
  intro v
  have hv : v = (s.writeEntry k (some { e with cands := cs })).recover k r.site (s.adjusted r.site r.quality).isSome := by
    simp only [v, State.adjusted_eq, State.scoreEntry, State.modifyEntry_of_entry hk, hcs]
  have hrecover := State.recover_of_entry (State.entry_writeEntry_self k (some { e with cands := cs }) s) r.site
    (s.adjusted r.site r.quality).isSome
  have hwhen : (e.state = .shadow ∧ e.serving = r.site ∧ (s.adjusted r.site r.quality).isSome = true ∧
      (s.writeEntry k (some { e with cands := cs })).siteUp r.site = true) ↔ RecoversBy s e r := by
    rw [State.adjusted_eq, adjustedQuality_isSome_iff]
    exact and_congr_right' (and_congr_right' (and_congr_right' State.siteUp_iff))
  refine ⟨fun hrec => ?_, fun hrec => hv.trans (hrecover.trans (if_neg ((not_congr hwhen).mpr hrec)))⟩
  refine hv.trans (hrecover.trans ((if_pos (hwhen.mpr hrec)).trans ?_))
  have halike : Alike (some { e with cands := cs }) (some { e with cands := cs, state := .attached }) :=
    alike_recovered hrec.1 rfl rfl rfl rfl
  exact congrArg (State.offerCore _) (State.writeEntry_writeEntry_alike halike s)

/-- A report applied to an entry: one write, then the notices, then the roam decision (R25). -/
theorem State.applyReport_of_entry {r : Report} {k : Nat} {e : Entry} {cs : List Candidate} (hl : s.lookup r.radio = some (k, e))
    (hk : s.entry k = some e) (hcands : CandidatesAfter s e r.site (adjustedQuality s r.site r.quality) false cs) :
    let told (u : State) :=
      if r.emergency && !e.emergency then u.offerCore (noticeOf s .emergency e.radio e.serving e.serving e.talkgroup .none) else u
    let e1 : Entry := { e with emergency := e.emergency || r.emergency, cands := cs }
    (RecoversBy s e r →
      s.applyReport r =
        ((told (s.writeEntry k (some { e1 with state := .attached }))).offerCore
          (noticeOf s .recovered e.radio r.site r.site e.talkgroup .none)).roamDecision k) ∧
    (¬RecoversBy s e r → s.applyReport r = (told (s.writeEntry k (some e1))).roamDecision k) := by
  intro told e1
  obtain ⟨hentry, hepoch, hpolicies, hmonitor⟩ := State.emergencyStep_frame hk r.emergency
  have hstep := State.emergencyStep hk r.emergency
  have happly : s.applyReport r =
      (((if r.emergency then s.setEmergency k else s).scoreEntry k r.site
        ((if r.emergency then s.setEmergency k else s).adjusted r.site r.quality) false).recover k r.site
          ((if r.emergency then s.setEmergency k else s).adjusted r.site r.quality).isSome).roamDecision k := by
    simp only [State.applyReport, hl]
  rw [happly]
  generalize (if r.emergency then s.setEmergency k else s) = s1 at hentry hepoch hpolicies hmonitor hstep
  have hadjusted : adjustedQuality s1 r.site r.quality = adjustedQuality s r.site r.quality := by
    rw [adjustedQuality, adjustedQuality, State.site_congr hmonitor]
  have hwhen : RecoversBy s1 { e with emergency := e.emergency || r.emergency } r ↔ RecoversBy s e r := by
    rw [RecoversBy, RecoversBy, State.site_congr hmonitor]
  have hnotice : noticeOf s1 .recovered e.radio r.site r.site e.talkgroup .none =
      noticeOf s .recovered e.radio r.site r.site e.talkgroup .none := by rw [noticeOf, noticeOf, hepoch]
  obtain ⟨hrecovered, hkept⟩ := State.scoreEntry_recover (r := r) (cs := cs) hentry
    (candidatesAfter_congr hepoch hpolicies ⟨rfl, rfl, rfl, rfl⟩ (by rw [hadjusted]; exact hcands))
  refine ⟨fun hrec => congrArg (State.roamDecision k) ?_, fun hrec => congrArg (State.roamDecision k) ?_⟩
  · have hwrite := hstep { e1 with state := .attached } (alike_recovered hrec.1 rfl rfl rfl rfl)
    exact (hrecovered (hwhen.mpr hrec)).trans (congr (congrArg State.offerCore hnotice) hwrite)
  · exact (hkept ((not_congr hwhen).mpr hrec)).trans (hstep e1 (Alike.of_kept rfl rfl rfl rfl rfl))

/-- Settles O21: the three steps of a report are one write of the entry. -/
theorem reportUpdatesEntry : Obligations.ReportUpdatesEntry := by
  intro s r rest k e cs h hrun hoff hholds hcands recovers
  obtain ⟨hs, hl⟩ := hholds
  have hk : s.entry k = some e := State.entry_of_lookup hs hl
  obtain ⟨hrecovered, hkept⟩ := State.applyReport_of_entry (s := { s with loc.reports := rest }) hl hk hcands
  rw [exec_report_of_run h hrun hoff]
  refine congrArg (fun u => Host.Outcome.next (withConditions s u)) ?_
  by_cases hrec : recovers
  · simp only [if_pos hrec]
    exact hrecovered hrec
  · simp only [if_neg hrec]
    exact hkept hrec

end Sys2Proof.Machine

/-! Registrations (R7, R9, R11, R57 to R62): the candidate update and what the registration does are one write of the entry. -/

namespace Sys2Proof.Machine

variable {s t u : State} {k : Nat} {e : Entry} {cs : List Candidate}

/-! ### Writes after the candidate update -/

theorem alike_scored (e : Entry) (cs : List Candidate) : Alike (some e) (some { e with cands := cs }) :=
  Alike.of_kept rfl rfl rfl rfl rfl

/-- A write after the candidate update replaces it. -/
theorem State.writeEntry_scored (hk : s.entry k = some e) (cs : List Candidate) (n : Option Entry) :
    (s.writeEntry k (some { e with cands := cs })).writeEntry k n = s.writeEntry k n :=
  State.writeEntry_writeEntry hk (alike_scored e cs) n

theorem State.entry_issueDirective (d : Directive) (k : Nat) (s : State) : (s.issueDirective d).entry k = s.entry k :=
  State.entry_congr (State.issueDirective_loc d s) k

/-- So does one with a directive between. -/
theorem State.writeEntry_issueDirective_scored (hk : s.entry k = some e) (cs : List Candidate) (d : Directive) (n : Option Entry) :
    ((s.writeEntry k (some { e with cands := cs })).issueDirective d).writeEntry k n = (s.issueDirective d).writeEntry k n := by
  rw [State.writeEntry_issueDirective k (some _) d]
  exact State.writeEntry_scored ((State.entry_issueDirective d k s).trans hk) cs n

theorem State.writeEntry_issueDirective₂_scored (hk : s.entry k = some e) (cs : List Candidate) (d d' : Directive) (n : Option Entry) :
    (((s.writeEntry k (some { e with cands := cs })).issueDirective d).issueDirective d').writeEntry k n =
      ((s.issueDirective d).issueDirective d').writeEntry k n := by
  rw [State.writeEntry_issueDirective k (some _) d]
  exact State.writeEntry_issueDirective_scored ((State.entry_issueDirective d k s).trans hk) cs d' n

/-! ### The unknown talkgroup -/

theorem rowOf_eq_none_iff (rows : Tab GroupRow) (g : Talkgroup) :
    rowOf rows g = none ↔ ∀ p ∈ rows, p.2.valid = true → p.2.talkgroup ≠ g := by
  simp [rowOf]

/-- The unknown-talkgroup event at an ATTACHED entry (R108). -/
theorem State.reportUnknown_of_attached (hk : s.entry k = some e) (hs : e.state = .attached) :
    s.reportUnknown k = notedUnknown e.talkgroup s := by
  simp only [State.reportUnknown, hk, hs, true_and, notedUnknown, rowOf_eq_none_iff]
  rfl

/-- The same after the entry's notice. -/
theorem State.reportUnknown_told {n : Entry} (hs : n.state = .attached) (f : CoreFrame) (k : Nat) (s : State) :
    ((s.writeEntry k (some n)).offerCore f).reportUnknown k = notedUnknown n.talkgroup ((s.writeEntry k (some n)).offerCore f) :=
  State.reportUnknown_of_attached ((State.entry_offerCore f k _).trans (State.entry_writeEntry_self ..)) hs

/-! ### The registration of an entry's radio -/

/-- REGISTRATION in RUN, from a site that is not OFF. -/
theorem exec_registration_of_run {r : Registration} {rest : List LocationFrame} (h : s.loc.frames = .registration r :: rest)
    (hrun : s.mgmt.run = .run) (hoff : (s.site r.site).state ≠ .off) :
    exec .registration s = .next (withConditions s ((frameTaken s rest).applyRegistration r)) := by
  rw [exec_registration_of_cons h, State.locEvent_eq, State.intake_of_run (s := frameTaken s rest) hrun hoff]
  rfl

theorem State.scoreEntry_registered {r : Registration} (hk : s.entry k = some e)
    (hcands : CandidatesAfter s e r.site (some (registeredQuality s r)) true cs) :
    s.scoreEntry k r.site (some (adjust (s.site r.site).cfg.offset (registrationQuality r.quality))) true =
      s.writeEntry k (some { e with cands := cs }) :=
  State.scoreEntry_of_spec hk hcands

/-- Through an UP site the registration takes effect after the candidate update. -/
theorem State.applyRegistration_of_up {r : Registration} (hl : s.lookup r.radio = some (k, e)) (hk : s.entry k = some e)
    (hcands : CandidatesAfter s e r.site (some (registeredQuality s r)) true cs) (hup : (s.site r.site).state = .up) :
    s.applyRegistration r =
      ((s.writeEntry k (some { e with cands := cs })).registrationEffect k r).roamDecision k := by
  simp only [State.applyRegistration, hl, State.siteUp_iff.mpr hup, State.scoreEntry_registered hk hcands]
  rfl

/-- Through another site it is a report. -/
theorem State.applyRegistration_of_not_up {r : Registration} (hl : s.lookup r.radio = some (k, e)) (hk : s.entry k = some e)
    (hcands : CandidatesAfter s e r.site (some (registeredQuality s r)) true cs) (hup : (s.site r.site).state ≠ .up) :
    s.applyRegistration r = (s.writeEntry k (some { e with cands := cs })).roamDecision k := by
  simp only [State.applyRegistration, hl, Bool.not_eq_true _ ▸ (not_congr State.siteUp_iff).mpr hup, State.scoreEntry_registered hk hcands]
  rfl

theorem State.registrationEffect_of_idle {r : Registration} (hk : s.entry k = some e) (hreason : r.reason ≠ .powerOff)
    (hs : e.state ≠ .moving) : s.registrationEffect k r = (s.registerIdle k e r.site r.talkgroup).reportUnknown k := by
  simp only [State.registrationEffect, hk, if_neg hreason]
  cases hstate : e.state <;> simp_all

theorem State.registrationEffect_of_moving {r : Registration} {h : Handover} (hk : s.entry k = some e) (hreason : r.reason ≠ .powerOff)
    (hs : e.state = .moving) (hh : e.handover = some h) :
    s.registrationEffect k r =
      (if r.site = h.target then s.commit k e h r.talkgroup
        else if r.site = e.serving then s.stayAtServing k e h r.talkgroup
        else s.selfRoam k e h r.site r.talkgroup).reportUnknown k := by
  simp only [State.registrationEffect, hk, if_neg hreason, hs, hh]

theorem State.registrationEffect_of_powerOff {r : Registration} (hk : s.entry k = some e) (hreason : r.reason = .powerOff) :
    s.registrationEffect k r = s.powerOff k e := by
  simp only [State.registrationEffect, hk, if_pos hreason]

/-! ### The effect of each case, written once -/

variable {r : Registration}

/-- The notices that end a registration, before the roam decision. -/
theorem State.reportUnknown_of_told {n : Entry} {f : CoreFrame} {g : Talkgroup} (hs : n.state = .attached) (hg : n.talkgroup = g)
    (h : u = (t.writeEntry k (some n)).offerCore f) : u.reportUnknown k = notedUnknown g u := by
  subst h hg
  exact State.reportUnknown_told hs f k t

/-- A registration of an UNATTACHED entry (R61). -/
theorem State.registerIdle_unattached (hs : e.state = .unattached) (x : Nat) (g : Talkgroup) (k : Nat) (s : State) :
    s.registerIdle k e x g =
      (s.writeEntry k (some { e with talkgroup := g, state := .attached, serving := x, dwell := 0 })).offerCore
        (noticeOf s .roam e.radio 0 x g .register) := by
  cases e
  cases hs
  rfl

/-- A registration of an ATTACHED entry through its serving site (R61). -/
theorem State.registerIdle_attached (hs : e.state = .attached) {x : Nat} (hx : e.serving = x) (g : Talkgroup) (k : Nat) (s : State) :
    s.registerIdle k e x g =
      (s.writeEntry k (some { e with talkgroup := g, state := .attached })).offerCore (noticeOf s .roam e.radio x x g .register) := by
  cases e
  cases hs
  cases hx
  simp [State.registerIdle, State.notify, noticeOf]

/-- A registration of a SHADOW entry through its serving site (R61). -/
theorem State.registerIdle_shadow (hs : e.state = .shadow) {x : Nat} (hx : e.serving = x) (g : Talkgroup) (k : Nat) (s : State) :
    s.registerIdle k e x g =
      (s.writeEntry k (some { e with talkgroup := g, state := .attached })).offerCore (noticeOf s .recovered e.radio x x g .none) := by
  cases e
  cases hs
  cases hx
  simp [State.registerIdle, State.notify, noticeOf]

/-- A registration of an entry in service through another site (R61, R62). -/
theorem State.registerIdle_elsewhere (hs : e.state = .attached ∨ e.state = .shadow) {x : Nat} (hx : e.serving ≠ x) (g : Talkgroup)
    (k : Nat) (s : State) :
    s.registerIdle k e x g =
      ((s.issueDirective (directiveOf e e.serving .release x e.number)).writeEntry k
        (some { e with talkgroup := g, state := .attached, serving := x, dwell := 0 })).offerCore
        (noticeOf s .roam e.radio e.serving x g .self) := by
  rcases hs with hs | hs <;>
    simp [State.registerIdle, hs, hx, State.release, State.notify, noticeOf, directiveOf]

/-- Settles O23. -/
theorem registrationAttaches : Obligations.RegistrationAttaches := by
  intro s r rest k e cs h hrun hholds hcands x g t e1 settled
  obtain ⟨hsorted, hl⟩ := hholds
  have hk : s.entry k = some e := State.entry_of_lookup hsorted hl
  let ec : Entry := { e with cands := cs }
  have hk1 : (t.writeEntry k (some ec)).entry k = some ec := State.entry_writeEntry_self ..
  refine ⟨fun hup hreason => ?_, fun hoff hup => ?_⟩
  · have hsettled : ∀ (v : State) (n : Entry) (f : CoreFrame), e.state ≠ .moving → n.state = .attached → n.talkgroup = g →
        (t.writeEntry k (some ec)).registerIdle k ec x g = (v.writeEntry k (some n)).offerCore f →
        settled ((v.writeEntry k (some n)).offerCore f) := by
      intro v n f hmoving hn hg hidle
      have hexec := exec_registration_of_run h hrun (by rw [hup]; decide)
      rw [State.applyRegistration_of_up (s := t) hl hk hcands hup, State.registrationEffect_of_idle hk1 hreason hmoving] at hexec
      rw [hidle, State.reportUnknown_of_told hn hg rfl] at hexec
      exact hexec
    refine ⟨fun hs => ?_, fun hs hx => ?_, fun hs hx => ?_, fun hs hx => ?_⟩
    · exact hsettled _ _ _ (by simp [hs]) rfl rfl ((State.registerIdle_unattached (e := ec) hs x g k _).trans
        (congrArg _ (State.writeEntry_scored (s := t) hk cs _)))
    · exact hsettled _ _ _ (by simp [hs]) rfl rfl ((State.registerIdle_attached (e := ec) hs hx g k _).trans
        (congrArg _ (State.writeEntry_scored (s := t) hk cs _)))
    · exact hsettled _ _ _ (by simp [hs]) rfl rfl ((State.registerIdle_shadow (e := ec) hs hx g k _).trans
        (congrArg _ (State.writeEntry_scored (s := t) hk cs _)))
    · exact hsettled _ _ _ (by rcases hs with hs | hs <;> simp [hs]) rfl rfl ((State.registerIdle_elsewhere (e := ec) hs hx g k _).trans
        (congrArg _ (State.writeEntry_issueDirective_scored (s := t) hk cs _ _)))
  · rw [exec_registration_of_run h hrun hoff, State.applyRegistration_of_not_up (s := t) hl hk hcands hup]


/-! ### The registration of a MOVING entry -/

theorem State.commit_eq (k : Nat) (e : Entry) (h : Handover) (g : Talkgroup) (s : State) :
    s.commit k e h g =
      ((s.issueDirective (directiveOf e e.serving .release h.target e.number)).writeEntry k
        (some { e with talkgroup := g, state := .attached, handover := none, serving := h.target, dwell := 0 })).offerCore
        (noticeOf s .roam e.radio e.serving h.target g h.origin.cause) := by
  simp [State.commit, State.release, State.notify, noticeOf, directiveOf]

theorem State.stayAtServing_eq (k : Nat) (e : Entry) (h : Handover) (g : Talkgroup) (s : State) :
    s.stayAtServing k e h g =
      ((s.issueDirective (directiveOf e h.target .cancel e.serving e.number)).writeEntry k
        (some { e with talkgroup := g, state := .attached, handover := none })).offerCore
        (noticeOf s .roam e.radio e.serving e.serving g .register) := by
  simp [State.stayAtServing, State.cancel, State.notify, noticeOf, directiveOf]

theorem State.selfRoam_eq (k : Nat) (e : Entry) (h : Handover) (x : Nat) (g : Talkgroup) (s : State) :
    s.selfRoam k e h x g =
      (((s.issueDirective (directiveOf e h.target .cancel e.serving e.number)).issueDirective
        (directiveOf e e.serving .release x e.number)).writeEntry k
        (some { e with talkgroup := g, state := .attached, handover := none, serving := x, dwell := 0 })).offerCore
        (noticeOf s .roam e.radio e.serving x g .self) := by
  simp [State.selfRoam, State.cancel, State.release, State.notify, noticeOf, directiveOf]

/-- Settles O24. -/
theorem registrationEndsHandover : Obligations.RegistrationEndsHandover := by
  intro s r rest k e h cs hf hrun hholds hup hreason hs hh hcands x g t e1 settled
  obtain ⟨hsorted, hl⟩ := hholds
  have hk : s.entry k = some e := State.entry_of_lookup hsorted hl
  let ec : Entry := { e with cands := cs }
  have hk1 : (t.writeEntry k (some ec)).entry k = some ec := State.entry_writeEntry_self ..
  have hsettled : ∀ (v : State) (n : Entry) (f : CoreFrame), n.state = .attached → n.talkgroup = g →
      (if x = h.target then (t.writeEntry k (some ec)).commit k ec h g
        else if x = e.serving then (t.writeEntry k (some ec)).stayAtServing k ec h g
        else (t.writeEntry k (some ec)).selfRoam k ec h x g) = (v.writeEntry k (some n)).offerCore f →
      settled ((v.writeEntry k (some n)).offerCore f) := by
    intro v n f hn hg hmoving
    have hexec := exec_registration_of_run hf hrun (by rw [hup]; decide)
    rw [State.applyRegistration_of_up (s := t) hl hk hcands hup, State.registrationEffect_of_moving hk1 hreason hs hh] at hexec
    rw [State.reportUnknown_of_told hn hg hmoving, hmoving] at hexec
    exact hexec
  refine ⟨fun hx => ?_, fun hx hserving => ?_, fun hx hserving => ?_⟩
  · refine hsettled _ _ _ rfl rfl ?_
    rw [if_pos hx, State.commit_eq, hx]
    refine (congrArg _ (State.writeEntry_issueDirective_scored (s := t) hk cs _ _)).trans ?_
    cases h.origin <;> rfl
  · refine hsettled _ _ _ rfl rfl ?_
    rw [if_neg hx, if_pos hserving, State.stayAtServing_eq, hserving]
    exact congrArg _ (State.writeEntry_issueDirective_scored (s := t) hk cs _ _)
  · refine hsettled _ _ _ rfl rfl ?_
    rw [if_neg hx, if_neg hserving, State.selfRoam_eq]
    exact congrArg _ (State.writeEntry_issueDirective₂_scored (s := t) hk cs _ _ _)

/-! ### POWER_OFF -/

theorem State.leaveSites_eq (e : Entry) (s : State) : s.leaveSites e = leaving e s := by
  cases hs : e.state <;> cases hh : e.handover <;>
    simp [State.leaveSites, leaving, hs, hh, State.release, State.cancel, directiveOf]

/-- An entry that leaves service sends no directive, one, or two. -/
theorem leaving_cases (e : Entry) :
    (∀ s, leaving e s = s) ∨ (∃ d, ∀ s, leaving e s = s.issueDirective d) ∨
      ∃ d d', ∀ s, leaving e s = (s.issueDirective d).issueDirective d' := by
  cases hs : e.state with
  | unattached => exact .inl fun s => by rw [leaving, hs]
  | attached => exact .inr (.inl ⟨_, fun s => by rw [leaving, hs]⟩)
  | shadow => exact .inr (.inl ⟨_, fun s => by rw [leaving, hs]⟩)
  | moving =>
    cases hh : e.handover with
    | none => exact .inr (.inl ⟨_, fun s => by rw [leaving, hs, hh]⟩)
    | some h => exact .inr (.inr ⟨_, _, fun s => by rw [leaving, hs, hh]⟩)

theorem leaving_loc (e : Entry) (s : State) : (leaving e s).loc = s.loc := by
  rcases leaving_cases e with h | ⟨d, h⟩ | ⟨d, d', h⟩ <;> simp [h]

/-- A write after the candidate update and the directives of a leaving entry. -/
theorem State.writeEntry_leaving_scored (hk : s.entry k = some e) (cs : List Candidate) (n : Option Entry) :
    (leaving e (s.writeEntry k (some { e with cands := cs }))).writeEntry k n = (leaving e s).writeEntry k n := by
  rcases leaving_cases e with h | ⟨d, h⟩ | ⟨d, d', h⟩
  · rw [h, h, State.writeEntry_scored hk]
  · rw [h, h, State.writeEntry_issueDirective_scored hk]
  · rw [h, h, State.writeEntry_issueDirective₂_scored hk]

/-- The entry that POWER_OFF leaves (R11). -/
def poweredOff (e : Entry) : Option Entry :=
  if e.emergency then some { e with state := .unattached, serving := 0, handover := none } else none

theorem State.powerOff_eq (k : Nat) (e : Entry) (s : State) :
    s.powerOff k e =
      ((leaving e s).writeEntry k (poweredOff e)).offerCore (noticeOf s .deregister e.radio e.serving 0 e.talkgroup .register) := by
  simp only [State.powerOff, poweredOff, State.leaveSites_eq]
  cases e.emergency <;> simp [State.notify, noticeOf, leaving_loc]

theorem State.roamDecision_of_none (h : s.entry k = none) : s.roamDecision k = s := by
  simp only [State.roamDecision, h]

/-- There is no roam decision after POWER_OFF. -/
theorem State.roamDecision_poweredOff (h : s.entry k = poweredOff e) : s.roamDecision k = s := by
  unfold poweredOff at h
  cases hemergency : e.emergency with
  | false => exact State.roamDecision_of_none (h.trans (by rw [hemergency]; rfl))
  | true =>
    rw [hemergency] at h
    exact State.roamDecision_eq_self h (.inl rfl)

/-- Settles O26. -/
theorem powerOffRegistration : Obligations.PowerOffRegistration := by
  intro s r rest k e cs hf hrun hholds hup hreason hcands
  obtain ⟨hsorted, hl⟩ := hholds
  have hk : s.entry k = some e := State.entry_of_lookup hsorted hl
  rw [exec_registration_of_run hf hrun (by rw [hup]; decide),
    State.applyRegistration_of_up (s := frameTaken s rest) hl hk hcands hup,
    State.registrationEffect_of_powerOff (State.entry_writeEntry_self ..) hreason, State.powerOff_eq,
    State.roamDecision_poweredOff ((State.entry_offerCore _ k _).trans (State.entry_writeEntry_self ..))]
  exact congrArg (fun u : State => Host.Outcome.next (withConditions s (u.offerCore _)))
    (State.writeEntry_leaving_scored (s := frameTaken s rest) hk cs _)

/-! ### The registration of a radio with no entry -/

theorem State.applyRegistration_of_unknown (hl : s.lookup r.radio = none) : s.applyRegistration r = s.registerNew r := by
  simp only [State.applyRegistration, hl]

/-- A new entry attached at once (R9). -/
theorem State.registerNew_attaches {evicts : Bool} (hreason : r.reason ≠ .powerOff) (hup : (s.site r.site).state = .up)
    (hslot : SlotFor s k evicts) :
    s.registerNew r =
      notedUnknown r.talkgroup
        (((slotTaken k evicts s).writeEntry k
          (some { createdEntry s r.radio r.site (registeredQuality s r) with
            state := .attached, serving := r.site, talkgroup := r.talkgroup })).offerCore
          (noticeOf s .roam r.radio 0 r.site r.talkgroup .register)) := by
  have hfree := (State.obtainSlot_of_spec hslot).2
  simp only [State.registerNew, if_neg hreason, State.siteUp_iff.mpr hup, if_true, registeredQuality_eq,
    State.createEntry_of_spec hslot, State.modifyEntry_of_entry (State.entry_writeEntry_self ..),
    State.writeEntry_writeEntry hfree (alike_created s r.radio r.site (registeredQuality s r))]
  cases evicts <;> exact State.reportUnknown_of_told rfl rfl rfl

/-- With no slot the registration is refused (R9). -/
theorem State.registerNew_refused (hreason : r.reason ≠ .powerOff) (hup : (s.site r.site).state = .up) (hslot : NoSlot s) :
    s.registerNew r =
      ((s.issueDirective
        { site := r.site, kind := .refuse, radio := r.radio, talkgroup := r.talkgroup, other := 0, number := 0
          tableFull := true }).offerCore
        (noticeOf s .refused r.radio 0 r.site r.talkgroup .register)).count (.global .refusedRegistrations) := by
  simp only [State.registerNew, if_neg hreason, State.siteUp_iff.mpr hup, if_true, State.createEntry_none hslot, State.notify,
    State.issueDirective_loc, noticeOf]

/-- Through a site that is not UP it creates an entry as a report does (R7, R8). -/
theorem State.registerNew_of_not_up (hreason : r.reason ≠ .powerOff) (hup : (s.site r.site).state ≠ .up) :
    s.registerNew r =
      match s.createEntry r.radio r.site (registeredQuality s r) with
      | some (_, s1) => s1
      | none => s.count (.global .untrackedReports) := by
  simp only [State.registerNew, if_neg hreason, if_neg ((not_congr State.siteUp_iff).mpr hup), registeredQuality_eq] <;> rfl

/-- Settles O25. -/
theorem registrationOfUnknownRadio : Obligations.RegistrationOfUnknownRadio := by
  intro s r rest hf hrun hoff hl x g t new
  have hexec : exec .registration s = .next (withConditions s (t.registerNew r)) := by
    rw [exec_registration_of_run hf hrun hoff, State.applyRegistration_of_unknown (s := frameTaken s rest) hl]
  rw [hexec]
  refine ⟨fun hreason => ?_, fun hreason hup k evicts hslot => ?_, fun hreason hup hslot => ?_, fun hreason hup k evicts hslot => ?_,
    fun hreason hup hslot => ?_⟩
  · rw [State.registerNew, if_pos hreason]
    exact congrArg _ (withConditions_of_entries_eq (by simp [t]; rfl))
  · rw [State.registerNew_attaches (s := t) hreason hup hslot]
    rfl
  · rw [State.registerNew_refused (s := t) hreason hup hslot]
    exact congrArg _ (withConditions_of_entries_eq (by simp [t]; rfl))
  · rw [State.registerNew_of_not_up (s := t) hreason hup, State.createEntry_of_spec (s := t) hslot]
    rfl
  · rw [State.registerNew_of_not_up (s := t) hreason hup, State.createEntry_none (s := t) hslot]
    exact congrArg _ (withConditions_of_entries_eq rfl)

end Sys2Proof.Machine

/-! What ends or ages an entry's service: abandons, audit visits, site changes and STOP. -/

namespace Sys2Proof.Machine

variable {s t u : State} {k x : Nat} {e : Entry} {h : Handover}

/-! ### Abandoning a handover (R55) -/

/-- The notice of an abandoned handover. -/
def abandonNotice (s : State) (e : Entry) (h : Handover) : CoreFrame :=
  noticeOf s .roamFailed e.radio e.serving h.target e.talkgroup (match h.origin with | .directed => .directed | .forced => .forced)

theorem abandonNotice_eq (s : State) (e : Entry) (h : Handover) :
    abandonNotice s e h = noticeOf s .roamFailed e.radio e.serving h.target e.talkgroup h.origin.cause := by
  unfold abandonNotice
  cases h.origin <;> rfl

/-- The CANCEL, the write and the notice of an abandon. -/
def abandonTold (k : Nat) (e : Entry) (h : Handover) (s : State) : State :=
  ((s.issueDirective (directiveOf e h.target .cancel e.serving e.number)).writeEntry k (some (abandoned s e h))).offerCore
    (abandonNotice s e h)

theorem State.abandon_eq (k : Nat) (e : Entry) (h : Handover) (s : State) :
    s.abandon k e h =
      if abandonState s e = .shadow then
        (abandonTold k e h s).offerCore (noticeOf s .shadow e.radio e.serving 0 e.talkgroup .none)
      else abandonTold k e h s := by
  have habandon : s.abandon k e h =
      let s1 := ((s.cancel e h).writeEntry k (some (abandoned s e h))).notify .roamFailed e.radio e.serving h.target e.talkgroup
        h.origin.cause
      if abandonState s e = .shadow then s1.notifyShadow e else s1 := rfl
  have htold : ((s.cancel e h).writeEntry k (some (abandoned s e h))).notify .roamFailed e.radio e.serving h.target e.talkgroup
        h.origin.cause = abandonTold k e h s := by
    rw [abandonTold, abandonNotice_eq]
    simp [State.cancel, State.notify, noticeOf, directiveOf]
  rw [habandon, htold]
  simp [State.notifyShadow, State.notify, noticeOf, abandonTold]

theorem abandonState_of_none (h : e.serving = 0) : abandonState s e = .unattached := if_pos h

theorem servingHeardAge_of_held {v : Candidate} (hv : candOf e.serving e.cands = some v) (now : Epoch) :
    servingHeardAge now e = age now v.heardEpoch := by
  rw [servingHeardAge, hv]

theorem abandonState_of_heard (hserving : e.serving ≠ 0) {v : Candidate} (hv : candOf e.serving e.cands = some v)
    (hup : (s.site e.serving).state = .up) (hheard : age s.loc.epoch v.heardEpoch < (s.policy e).shadowHold) :
    abandonState s e = .attached := by
  rw [abandonState, if_neg hserving, State.siteUp_iff.mpr hup, servingHeardAge_of_held hv, decide_eq_true hheard]
  rfl

theorem abandonState_of_lost (hserving : e.serving ≠ 0) {v : Candidate} (hv : candOf e.serving e.cands = some v)
    (hlost : (s.site e.serving).state ≠ .up ∨ (s.policy e).shadowHold ≤ age s.loc.epoch v.heardEpoch) :
    abandonState s e = .shadow := by
  rw [abandonState, if_neg hserving, servingHeardAge_of_held hv]
  refine if_neg fun hif => ?_
  rw [Bool.and_eq_true, State.siteUp_iff, decide_eq_true_eq] at hif
  exact hlost.elim (fun hdown => hdown hif.1) fun hage => Nat.not_lt.mpr hage hif.2

/-- Settles O28. -/
theorem abandonEffect : Obligations.AbandonEffect := by
  intro s k e h t e1 told
  have habandon : ∀ st, abandonState s e = st → s.abandon k e h =
      if st = .shadow then
        ((t.writeEntry k (some { e1 with state := st, shadow := if st = .shadow then 0 else e.shadow })).offerCore told).offerCore
          (noticeOf s .shadow e.radio e.serving 0 e.talkgroup .none)
      else (t.writeEntry k (some { e1 with state := st, shadow := if st = .shadow then 0 else e.shadow })).offerCore told := by
    rintro st rfl
    exact State.abandon_eq k e h s
  refine ⟨fun hserving => habandon _ (abandonState_of_none hserving), fun hserving v hv => ⟨fun hup hheard => ?_, fun hlost => ?_⟩⟩
  · exact habandon _ (abandonState_of_heard hserving hv hup hheard)
  · exact habandon _ (abandonState_of_lost hserving hv hlost)

/-! ### Epoch boundaries -/

/-- Settles O29. -/
theorem epochBoundaryAdvances : Obligations.EpochBoundaryAdvances := by
  intro s
  have hexec : exec .epochBoundary s = execEpochBoundary s := rfl
  rw [hexec]
  refine ⟨fun b hb hrun hpast hvisits => ?_, fun hnot => ?_⟩
  · simp only [execEpochBoundary, hb]
    exact if_pos ⟨hrun, hpast, hvisits⟩
  · unfold execEpochBoundary
    split
    · next b hb =>
      refine if_neg fun ⟨hrun, hpast, hvisits⟩ => ?_
      rcases hnot with hload | hwaiting | hnone | ⟨b', hb', hlater⟩
      · rw [hrun] at hload; cases hload
      · exact hwaiting hvisits
      · rw [hnone] at hb; cases hb
      · rw [hb'] at hb; cases hb; omega
    · rfl

/-! ### The audit visit of an entry that is not MOVING -/

theorem alike_audited (s : State) (e : Entry) : Alike (some e) (some (audited s e)) := by
  refine Alike.of_kept rfl rfl ?_ rfl rfl
  cases hs : e.state <;> cases hh : e.handover <;> simp [audited, hs, hh]

/-- A write in an audit visit replaces the ageing of the entry. -/
theorem State.writeEntry_audited (hk : s.entry k = some e) (t : State) (n : Option Entry) :
    (s.writeEntry k (some (audited t e))).writeEntry k n = s.writeEntry k n :=
  State.writeEntry_writeEntry hk (alike_audited t e) n

/-- A roam decision from ATTACHED or SHADOW is not followed by a purge. -/
theorem State.purge_roamDecision {g : Entry} (hg : g.state ≠ .unattached) (ht : t.loc.entries = s.loc.entries.insert k g) :
    (t.roamDecision k).purge k = t.roamDecision k := by
  obtain ⟨g', hentries, -, hkept⟩ := State.roamDecision_entries ht
  refine State.purge_eq_self (State.entry_of_entries_insert hentries) ?_
  rcases hkept with rfl | hmoving
  · exact hg
  · simp [hmoving]

/-- The end of a visit that leaves the entry in service. -/
theorem State.endOfVisit_inService {e g : Entry} (hk : Occupied s k e) (hg : g.state ≠ .unattached)
    (hemergency : g.emergency = e.emergency) (ht : t.loc.entries = s.loc.entries.insert k g) :
    withConditions s ((t.roamDecision k).purge k) = t.roamDecision k := by
  rw [State.purge_roamDecision hg ht]
  obtain ⟨g', hentries, hkept, -⟩ := State.roamDecision_entries ht
  exact withConditions_of_entries_insert hk hentries (hkept.trans hemergency)

/-- The end of a visit that leaves the entry UNATTACHED: it is purged, or not. -/
theorem State.endOfVisit_unattached {e g : Entry} (hk : Occupied s k e) (hg : g.state = .unattached)
    (hemergency : g.emergency = e.emergency) (ht : t.loc.entries = s.loc.entries.insert k g) :
    (PurgeDue t g → withConditions s ((t.roamDecision k).purge k) =
      withConditions s ((t.writeEntry k none).count (.global .purgedEntries))) ∧
    (¬PurgeDue t g → withConditions s ((t.roamDecision k).purge k) = t) := by
  have hkg : t.entry k = some g := State.entry_of_entries_insert ht
  rw [State.roamDecision_eq_self hkg (.inl hg)]
  refine ⟨fun hdue => by rw [State.purge_of_due hkg hg hdue], fun hdue => ?_⟩
  rw [State.purge_of_not_due hkg hdue]
  exact withConditions_of_entries_insert hk ht hemergency

theorem State.enterShadow_eq (k : Nat) (e : Entry) (s : State) :
    s.enterShadow k e =
      (s.writeEntry k (some { e with state := .shadow, shadow := 0 })).offerCore
        (noticeOf s .shadow e.radio e.serving 0 e.talkgroup .none) := rfl

theorem State.lose_eq (k : Nat) (e : Entry) (s : State) :
    s.lose k e =
      (s.writeEntry k (some { e with state := .unattached, serving := 0 })).offerCore
        (noticeOf s .lost e.radio e.serving 0 e.talkgroup .none) := rfl

/-- The check of an entry that is not MOVING (R18, R38, R41). -/
theorem State.checkState_of_unattached (hk : s.entry k = some e) (hs : e.state = .unattached) : s.checkState k = s := by
  simp only [State.checkState, hk, hs]

theorem State.checkState_of_attached (hk : s.entry k = some e) (hs : e.state = .attached) {v : Candidate}
    (hv : candOf e.serving e.cands = some v) :
    s.checkState k = if (s.policy e).shadowHold ≤ age s.loc.epoch v.heardEpoch then s.enterShadow k e else s := by
  simp only [State.checkState, hk, hs, servingHeardAge_of_held hv]

theorem State.checkState_of_shadow (hk : s.entry k = some e) (hs : e.state = .shadow) :
    s.checkState k = if (s.policy e).lostLimit ≤ e.shadow then s.lose k e else s := by
  simp only [State.checkState, hk, hs]

/-- AUDIT_VISIT of an occupied slot: the check, the roam decision and the purge of the aged entry. -/
theorem exec_auditVisit_of_entry (hrun : s.mgmt.run = .run) (hvisit : k ∈ s.loc.visits) (hk : s.entry k = some e) :
    exec (.auditVisit k) s =
      .next (withConditions (visitTaken s k)
        ((((((visitTaken s k).writeEntry k (some (audited s e))).checkState k).roamDecision k).purge k))) := by
  rw [exec_auditVisit_of_mem hrun hvisit, State.visit_of_entry (s := visitTaken s k) hk]
  rfl

/-- The entry that a loss leaves (R41). -/
def lost (e : Entry) : Entry := { e with state := .unattached, serving := 0 }

/-- The check of a SHADOW entry past its limit, straight after it was aged: one write and the LOST notice. -/
theorem State.checkState_of_lost (hk : s.entry k = some e) (hs : e.state = .shadow) (t : State)
    (hlost : (s.policy e).lostLimit ≤ (audited t e).shadow) :
    (s.writeEntry k (some (audited t e))).checkState k =
      (s.writeEntry k (some (lost (audited t e)))).offerCore (noticeOf s .lost e.radio e.serving 0 e.talkgroup .none) := by
  have hpast : ((s.writeEntry k (some (audited t e))).policy (audited t e)).lostLimit ≤ (audited t e).shadow := hlost
  have haged : (audited t e).state = .shadow := hs
  rw [State.checkState_of_shadow (State.entry_writeEntry_self ..) haged, if_pos hpast, State.lose_eq, State.writeEntry_audited hk]
  rfl

/-- A loss changes nothing the purge reads. -/
theorem purgeDue_lost_iff (k : Nat) (e : Entry) (f : CoreFrame) (s : State) :
    PurgeDue ((s.writeEntry k (some (lost e))).offerCore f) (lost e) ↔ PurgeDue s e := by
  unfold PurgeDue
  rw [State.offerCore_loc]
  rfl

/-- Settles O30: the visit's five steps in order, by the state of the entry. -/
theorem auditOfSettledEntry : Obligations.AuditOfSettledEntry := by
  refine ⟨fun s k e hrun hvisit hocc => ?_, fun s k hnot => if_neg fun ⟨hrun, hvisit⟩ => ?_⟩
  · intro t e1 visit
    have hk : t.entry k = some e := hocc.2
    have hvisited : visit = _ := exec_auditVisit_of_entry hrun hvisit hocc.2
    have hk1 : (t.writeEntry k (some e1)).entry k = some e1 := State.entry_writeEntry_self ..
    have hoccupied : Occupied t k e := hocc
    rw [hvisited]
    refine ⟨fun hs hdue => ?_, fun hs hdue => ?_, fun hs v hv => ?_, fun hs hkept => ?_, fun hs hlost hdue => ?_, fun hs hlost hdue => ?_⟩
    · rw [State.checkState_of_unattached hk1 hs,
        (State.endOfVisit_unattached hoccupied (g := e1) hs rfl (State.writeEntry_some_entries ..)).1 hdue, State.writeEntry_audited hk]
      rfl
    · rw [State.checkState_of_unattached hk1 hs,
        (State.endOfVisit_unattached hoccupied (g := e1) hs rfl (State.writeEntry_some_entries ..)).2 hdue]
    · have haged : e1.state = .attached := hs
      rw [State.checkState_of_attached hk1 hs hv, State.enterShadow_eq, State.writeEntry_audited hk]
      refine congrArg _ ((apply_ite (fun u : State => withConditions t ((u.roamDecision k).purge k)) ..).trans ?_)
      refine ite_congr rfl (fun _ => ?_) fun _ => ?_
      · exact State.endOfVisit_inService hoccupied (g := { e1 with state := .shadow, shadow := 0 }) (fun hout => by cases hout) rfl
          (by rw [State.offerCore_loc]; rfl)
      · exact State.endOfVisit_inService hoccupied (g := e1) (by rw [haged]; decide) rfl rfl
    · have haged : e1.state = .shadow := hs
      have hnot : ¬((t.writeEntry k (some e1)).policy e1).lostLimit ≤ e1.shadow := Nat.not_le.mpr hkept
      rw [State.checkState_of_shadow hk1 hs, if_neg hnot]
      exact congrArg _ (State.endOfVisit_inService hoccupied (g := e1) (by rw [haged]; decide) rfl rfl)
    · rw [State.checkState_of_lost hk hs s hlost]
      exact congrArg _ ((State.endOfVisit_unattached hoccupied (g := lost e1) rfl rfl (by rw [State.offerCore_loc]; rfl)).2
        ((not_congr (purgeDue_lost_iff k e1 _ t)).mpr hdue))
    · rw [State.checkState_of_lost hk hs s hlost]
      exact congrArg _ ((State.endOfVisit_unattached hoccupied (g := lost e1) rfl rfl (by rw [State.offerCore_loc]; rfl)).1
        ((purgeDue_lost_iff k e1 _ t).mpr hdue))
  · rcases hnot with hload | hout
    · rw [hrun] at hload; cases hload
    · exact hout hvisit

end Sys2Proof.Machine

/-! Site changes and STOP at an entry (R39, R63, R64, R81, R82). -/

namespace Sys2Proof.Machine

variable {s t u : State} {k x : Nat} {e : Entry} {h : Handover}

/-! ### Site change reports -/

theorem exec_siteLeftUpEntry_of_news (hn : s.nextEntryReport k = some { slot := k, site := x, news := .leftUp }) :
    exec (.siteLeftUpEntry k) s = .next (withConditions s ((newsTaken s k x .leftUp).siteLeftUp k x)) := by
  change execSiteLeftUpEntry k s = _
  simp only [execSiteLeftUpEntry, hn, State.locEvent_eq]
  rfl

theorem exec_siteRemovedEntry_of_news (hn : s.nextEntryReport k = some { slot := k, site := x, news := .removed }) :
    exec (.siteRemovedEntry k) s = .next (withConditions s ((newsTaken s k x .removed).siteRemoved k x)) := by
  change execSiteRemovedEntry k s = _
  simp only [execSiteRemovedEntry, hn, State.locEvent_eq]
  rfl

/-- The command does nothing without a report of its own kind at the front. -/
theorem exec_siteLeftUpEntry_idle (hn : ∀ r, s.nextEntryReport k = some r → r.news ≠ .leftUp) : exec (.siteLeftUpEntry k) s = .next s := by
  change execSiteLeftUpEntry k s = _
  unfold execSiteLeftUpEntry
  split
  · next r hr =>
    cases hnews : r.news with
    | leftUp => exact absurd hnews (hn r hr)
    | removed => rfl
  · rfl

theorem exec_siteRemovedEntry_idle (hn : ∀ r, s.nextEntryReport k = some r → r.news ≠ .removed) :
    exec (.siteRemovedEntry k) s = .next s := by
  change execSiteRemovedEntry k s = _
  unfold execSiteRemovedEntry
  split
  · next r hr =>
    cases hnews : r.news with
    | leftUp => rfl
    | removed => exact absurd hnews (hn r hr)
  · rfl

theorem State.siteLeftUp_of_attached (hk : s.entry k = some e) (hs : e.state = .attached) (x : Nat) :
    s.siteLeftUp k x = if e.serving = x then s.enterShadow k e else s := by
  simp only [State.siteLeftUp, hk, hs]

theorem State.siteLeftUp_of_moving (hk : s.entry k = some e) (hs : e.state = .moving) (x : Nat) :
    s.siteLeftUp k x = match e.handover with | some h => if h.target = x then s.abandon k e h else s | none => s := by
  cases hh : e.handover <;> simp only [State.siteLeftUp, hk, hs, hh]

theorem State.siteLeftUp_of_other (hk : s.entry k = some e) (hs : e.state = .unattached ∨ e.state = .shadow) (x : Nat) :
    s.siteLeftUp k x = s := by
  rcases hs with hs | hs <;> simp only [State.siteLeftUp, hk, hs]

/-- Settles O32. -/
theorem siteLeftUpAtEntry : Obligations.SiteLeftUpAtEntry := by
  refine ⟨fun s k x e hn hocc => ?_, fun s k hn => exec_siteLeftUpEntry_idle hn⟩
  intro t
  have hk : t.entry k = some e := hocc.2
  rw [exec_siteLeftUpEntry_of_news hn]
  refine ⟨fun hs hx => ?_, fun h hs hh hx => ?_, fun hother => ?_⟩
  · subst hx
    rw [State.siteLeftUp_of_attached hk hs, if_pos rfl, State.enterShadow_eq]
    exact congrArg _ (withConditions_of_entries_insert hocc (g := { e with state := .shadow, shadow := 0 })
      (by rw [State.offerCore_loc]; rfl) rfl)
  · rw [State.siteLeftUp_of_moving hk hs, hh]
    dsimp only
    rw [if_pos hx]
    exact congrArg _ (withConditions_of_entries_insert hocc (State.abandon_entries ..) rfl)
  · have hsame : t.siteLeftUp k x = t := by
      rcases hother with hs | hs | ⟨hs, hx⟩ | ⟨hs, hx⟩
      · exact State.siteLeftUp_of_other hk (.inl hs) x
      · exact State.siteLeftUp_of_other hk (.inr hs) x
      · rw [State.siteLeftUp_of_attached hk hs, if_neg hx]
      · rw [State.siteLeftUp_of_moving hk hs]
        cases hh : e.handover with
        | none => rfl
        | some h => exact if_neg (hx h hh)
    rw [hsame]
    exact congrArg _ (withConditions_of_entries_eq rfl)

/-! ### Removed sites -/

theorem RadioState.cases (st : RadioState) : st = .unattached ∨ st = .attached ∨ st = .shadow ∨ st = .moving := by
  cases st <;> decide

theorem State.dropSite_of_entry (hk : s.entry k = some e) (x : Nat) :
    s.dropSite k x = s.writeEntry k (some { e with cands := dropCand x e.cands }) :=
  State.modifyEntry_of_entry hk _

theorem State.siteRemoved_of_settled (hk : s.entry k = some e) (hs : e.state = .attached ∨ e.state = .shadow) (x : Nat) :
    s.siteRemoved k x =
      if e.serving = x then
        (s.writeEntry k (some { e with state := .unattached, serving := 0, cands := dropCand x e.cands })).offerCore
          (noticeOf s .lost e.radio x 0 e.talkgroup .none)
      else s.writeEntry k (some { e with cands := dropCand x e.cands }) := by
  rcases hs with hs | hs <;> simp only [State.siteRemoved, hk, hs, State.dropSite_of_entry hk] <;> rfl

theorem State.siteRemoved_of_moving (hk : s.entry k = some e) (hs : e.state = .moving) (hh : e.handover = some h) (x : Nat) :
    s.siteRemoved k x =
      if h.target = x then (s.abandon k e h).modifyEntry k fun e' => { e' with cands := dropCand x e'.cands }
      else if e.serving = x then s.writeEntry k (some { e with serving := 0, cands := dropCand x e.cands })
      else s.writeEntry k (some { e with cands := dropCand x e.cands }) := by
  simp only [State.siteRemoved, hk, hs, hh, State.dropSite_of_entry hk] <;> rfl

theorem State.siteRemoved_of_other (hk : s.entry k = some e) (hs : e.state = .unattached ∨ e.state = .moving ∧ e.handover = none)
    (x : Nat) : s.siteRemoved k x = s.writeEntry k (some { e with cands := dropCand x e.cands }) := by
  rcases hs with hs | ⟨hs, hh⟩
  · simp only [State.siteRemoved, hk, hs, State.dropSite_of_entry hk]
  · simp only [State.siteRemoved, hk, hs, hh, State.dropSite_of_entry hk]

theorem State.siteRemoved_of_elsewhere (hk : s.entry k = some e) (hserving : e.serving ≠ x)
    (htarget : ∀ h, e.state = .moving → e.handover = some h → h.target ≠ x) :
    s.siteRemoved k x = s.writeEntry k (some { e with cands := dropCand x e.cands }) := by
  rcases RadioState.cases e.state with hs | hs | hs | hs
  · exact State.siteRemoved_of_other hk (.inl hs) x
  · rw [State.siteRemoved_of_settled hk (.inl hs), if_neg hserving]
  · rw [State.siteRemoved_of_settled hk (.inr hs), if_neg hserving]
  · by_cases hh : e.handover = none
    · exact State.siteRemoved_of_other hk (.inr ⟨hs, hh⟩) x
    · obtain ⟨h, hh⟩ := Option.ne_none_iff_exists'.mp hh
      rw [State.siteRemoved_of_moving hk hs hh, if_neg (htarget h hs hh), if_neg hserving]

/-- Settles O33. -/
theorem siteRemovedAtEntry : Obligations.SiteRemovedAtEntry := by
  refine ⟨fun s k x e hn hocc => ?_, fun s k hn => exec_siteRemovedEntry_idle hn⟩
  intro t
  have hk : t.entry k = some e := hocc.2
  have hsame : ∀ (u : State) (g : Entry), u.loc.entries = s.loc.entries.insert k g → g.emergency = e.emergency →
      withConditions s u = u := fun u g hu hg => withConditions_of_entries_insert hocc hu hg
  rw [exec_siteRemovedEntry_of_news hn]
  refine ⟨fun hs hx => ?_, fun h hs hh hx => ?_, fun h hs hh hx hserving => ?_, fun hserving htarget => ?_⟩
  · rw [State.siteRemoved_of_settled hk hs, if_pos hx]
    exact congrArg _ (hsame _ { e with state := .unattached, serving := 0, cands := dropCand x e.cands }
      (by rw [State.offerCore_loc]; rfl) rfl)
  · rw [State.siteRemoved_of_moving hk hs hh, if_pos hx, State.modifyEntry_of_entry (State.abandon_entry k e h t)]
    exact congrArg _ (hsame _ { abandoned t e h with cands := dropCand x e.cands }
      (by rw [State.writeEntry_some_entries, State.abandon_entries, Tab.insert_insert]; rfl) rfl)
  · rw [State.siteRemoved_of_moving hk hs hh, if_neg hx, if_pos hserving]
    exact congrArg _ (hsame _ { e with serving := 0, cands := dropCand x e.cands } rfl rfl)
  · have hdropped : t.siteRemoved k x = t.dropSite k x := by
      rw [State.dropSite_of_entry hk]
      rcases hserving with hs | hserving
      · exact State.siteRemoved_of_other hk (.inl hs) x
      · exact State.siteRemoved_of_elsewhere hk hserving htarget
    rw [hdropped, State.dropSite_of_entry hk]
    exact congrArg _ (hsame _ { e with cands := dropCand x e.cands } rfl rfl)

/-! ### STOP -/

/-- The state that STOP leaves a MOVING entry in (R64). -/
def stopState (s : State) (e : Entry) : RadioState :=
  if e.serving = 0 then .unattached else if s.siteUp e.serving then .attached else .shadow

/-- The entry whose handover STOP ended (R64). -/
def stopped (e : Entry) (next : RadioState) : Entry :=
  { e with handover := none, state := next, shadow := if next = .shadow then 0 else e.shadow }

/-- What STOP does to a MOVING entry: CANCEL, the write, the notices. -/
def handoverStopped (k : Nat) (e : Entry) (h : Handover) (next : RadioState) (s : State) : State :=
  let told := ((s.issueDirective (directiveOf e h.target .cancel e.serving e.number)).writeEntry k (some (stopped e next))).offerCore
    (abandonNotice s e h)
  if next = .shadow then told.offerCore (noticeOf s .shadow e.radio e.serving 0 e.talkgroup .none) else told

theorem State.endHandover_of_moving (hk : s.entry k = some e) (hs : e.state = .moving) (hh : e.handover = some h) :
    s.endHandover k = handoverStopped k e h (stopState s e) s := by
  have hended : s.endHandover k =
      let s1 := ((s.cancel e h).writeEntry k (some (stopped e (stopState s e)))).notify .roamFailed e.radio e.serving h.target
        e.talkgroup h.origin.cause
      if stopState s e = .shadow then s1.notifyShadow e else s1 := by
    simp only [State.endHandover, hk, hs, hh] <;> rfl
  rw [hended, handoverStopped, abandonNotice_eq]
  simp [State.notifyShadow, State.notify, State.cancel, noticeOf, directiveOf]

theorem handoverStopped_entries (k : Nat) (e : Entry) (h : Handover) (next : RadioState) (s : State) :
    (handoverStopped k e h next s).loc.entries = s.loc.entries.insert k (stopped e next) := by
  unfold handoverStopped
  dsimp only
  split <;> simp

theorem exec_stopHandoverEnd_of_mem (hk : k ∈ s.loc.stopReports) :
    exec (.stopHandoverEnd k) s =
      .next (withConditions s (({ s with loc.stopReports := s.loc.stopReports.filter (· != k) } : State).endHandover k)) := by
  refine (if_pos hk).trans ?_
  rw [State.locEvent_eq]
  rfl

/-- Settles O34. -/
theorem stopEndsHandover : Obligations.StopEndsHandover := by
  refine ⟨fun s k e h hstop hocc hs hh => ?_, fun s k hstop => if_neg hstop⟩
  intro t told
  let s1 : State := { s with loc.stopReports := s.loc.stopReports.filter (· != k) }
  have hended : ∀ next, stopState s e = next → exec (.stopHandoverEnd k) s = .next (handoverStopped k e h next s1) := by
    rintro next rfl
    rw [exec_stopHandoverEnd_of_mem hstop, State.endHandover_of_moving (s := s1) hocc.2 hs hh]
    exact congrArg _ (withConditions_of_entries_insert hocc (handoverStopped_entries ..) rfl)
  refine ⟨fun hserving => ?_, fun hserving hup => ?_, fun hserving hup => ?_⟩
  · exact hended .unattached (if_pos hserving)
  · exact hended .attached (by rw [stopState, if_neg hserving, State.siteUp_iff.mpr hup]; rfl)
  · exact hended .shadow (by rw [stopState, if_neg hserving, if_neg ((not_congr State.siteUp_iff).mpr hup)])

end Sys2Proof.Machine

/-! The site monitor's commands (chapter 4): heartbeats, stalls and the admin actions. -/

namespace Sys2Proof.Machine

variable {s t u : State} {x : Nat}

/-! ### Writing a number twice -/

/-- A number below all keys goes to the front. -/
theorem Tab.insert_of_lt {α : Type} {k : Nat} {t : Tab α} (v : α) (h : ∀ p ∈ t, k < p.1) : t.insert k v = (k, v) :: t := by
  cases t with
  | nil => rfl
  | cons p t => exact if_pos (h p List.mem_cons_self)

theorem Tab.erase_of_lt {α : Type} {k : Nat} {t : Tab α} (h : ∀ p ∈ t, k < p.1) : t.erase k = t :=
  List.filter_eq_self.mpr fun p hp => bne_iff_ne.mpr (Nat.ne_of_gt (h p hp))

/-- Taking a number out before listing it changes nothing. -/
theorem Tab.insert_erase {α : Type} {k : Nat} (v : α) {t : Tab α} (hs : t.sorted = true) : (t.erase k).insert k v = t.insert k v := by
  induction t with
  | nil => rfl
  | cons p t ih =>
    obtain ⟨j, w⟩ := p
    obtain ⟨hall, hsorted⟩ := Bool.and_eq_true_iff.mp hs
    have hlt : ∀ p ∈ t, j < p.1 := fun p hp => of_decide_eq_true (List.all_eq_true.mp hall p hp)
    rcases Nat.lt_trichotomy k j with hkj | rfl | hkj
    · rw [Tab.erase_of_lt (List.forall_mem_cons.mpr ⟨hkj, fun p hp => Nat.lt_trans hkj (hlt p hp)⟩)]
    · have herase : Sys2Proof.Tab.erase k ((k, w) :: t) = t := by
        rw [Sys2Proof.Tab.erase, List.filter_cons_of_neg (by simp)]
        exact Tab.erase_of_lt hlt
      rw [herase, Tab.insert_of_lt v hlt]
      simp [Sys2Proof.Tab.insert]
    · have herase : Sys2Proof.Tab.erase k ((j, w) :: t) = (j, w) :: Sys2Proof.Tab.erase k t :=
        List.filter_cons_of_pos (bne_iff_ne.mpr (Nat.ne_of_lt hkj))
      rw [herase]
      simp [Sys2Proof.Tab.insert, Nat.lt_asymm hkj, Nat.ne_of_lt hkj, ih hsorted]

/-- The first of two writes to a number is lost. -/
theorem Tab.put_put {α : Type} [DecidableEq α] {d : α} {k : Nat} (v w : α) {t : Tab α} (hs : t.sorted = true) :
    (t.put d k v).put d k w = t.put d k w := by
  by_cases hv : v = d <;> by_cases hw : w = d <;>
    simp only [Sys2Proof.Tab.put, hv, hw, if_true, if_false, Tab.erase_erase, Sys2Proof.Tab.erase_insert, Tab.insert_erase _ hs,
      Tab.insert_insert]

/-- The first write is lost, in any table, if it lists the number. -/
theorem Tab.put_put_of_ne {α : Type} [DecidableEq α] {d : α} {k : Nat} {v : α} (hv : v ≠ d) (w : α) (t : Tab α) :
    (t.put d k v).put d k w = t.put d k w := by
  by_cases hw : w = d <;>
    simp only [Sys2Proof.Tab.put, hv, hw, if_true, if_false, Sys2Proof.Tab.erase_insert, Tab.insert_insert]

/-! ### Heartbeats -/

theorem exec_heartbeat_of_cons {h : Heartbeat} {rest : List Heartbeat} (hinbox : s.monitor.inbox = h :: rest) :
    exec .heartbeat s = .next (({ s with monitor.inbox := rest } : State).takeHeartbeat h) := by
  change execHeartbeat s = _
  rw [execHeartbeat, hinbox]

theorem SiteRecord.ne_default_of_state {r : SiteRecord} (h : r.state ≠ .off) : r ≠ SiteRecord.default :=
  fun heq => h (by rw [heq]; rfl)

theorem State.putSite_putSite {v : SiteRecord} (hv : v.state ≠ .off) (x : Nat) (w : SiteRecord) (s : State) :
    (s.putSite x v).putSite x w = s.putSite x w := by
  simp only [State.putSite, Tab.put_put_of_ne (SiteRecord.ne_default_of_state hv)]

/-- The interval that a heartbeat closes (R73). -/
def beatInterval (s : State) (r : SiteRecord) : Option Nat := r.lastHeartbeat.map fun d => min (s.now - d) 65535

theorem SiteRecord.beat_eq (s : State) (r : SiteRecord) (alarm : Bool) :
    r.beat s.now alarm =
      { r with interval := (beatInterval s r).getD r.interval, lastHeartbeat := some s.now, alarm := alarm } := by
  unfold SiteRecord.beat beatInterval
  cases r.lastHeartbeat <;> rfl

theorem SiteRecord.runAfter_eq (s : State) (r : SiteRecord) :
    r.runAfter s.now = if (∃ d, beatInterval s r = some d ∧ d < r.cfg.stallLimit) then r.run + 1 else 1 := by
  unfold SiteRecord.runAfter beatInterval
  cases r.lastHeartbeat <;> simp

/-- Steps 1 to 4 of a heartbeat (R73, R126). -/
def heartbeatNoted (h : Heartbeat) (s : State) : State :=
  (s.putSite h.site ((s.site h.site).beat s.now h.alarm)).returnCredits h.site h.credits

/-- A heartbeat of a site that is not OFF, up to the alarm report. -/
theorem State.takeHeartbeat_of_on {h : Heartbeat} (hon : (s.site h.site).state ≠ .off) :
    s.takeHeartbeat h =
      let t := ((heartbeatNoted h s).workState h.site (s.site h.site)).count (.site h.site .heartbeats)
      t.reportChange .siteAlarm s.anyAlarm t.anyAlarm :=
  if_neg hon

theorem State.workState_of_settled {r : SiteRecord} (hr : r.state = .up ∨ r.state = .barred) (x : Nat) (s : State) :
    s.workState x r = s := by
  rcases hr with hr | hr <;> simp only [State.workState, hr]

theorem State.workState_of_recovering {r : SiteRecord} (hr : r.state = .waiting ∨ r.state = .stalled) (x : Nat) (s : State) :
    s.workState x r =
      if r.cfg.recoveryCount ≤ r.runAfter s.now then
        (((s.putSite x { s.site x with state := .up, run := 0 }).putCredits x r.cfg.initialCredit).reportUp x).count
          (.site x .recoveries)
      else s.putSite x { s.site x with run := r.runAfter s.now } := by
  rcases hr with hr | hr <;> simp only [State.workState, hr]

theorem State.site_heartbeatNoted (h : Heartbeat) (s : State) :
    (heartbeatNoted h s).site h.site = (s.site h.site).beat s.now h.alarm := by
  have hsite : (heartbeatNoted h s).site h.site = (s.putSite h.site ((s.site h.site).beat s.now h.alarm)).site h.site := rfl
  rw [hsite, State.site_putSite, if_pos rfl]

/-- The record replaced after a heartbeat was noted. -/
theorem State.putSite_heartbeatNoted {h : Heartbeat} (hon : (s.site h.site).state ≠ .off) (w : SiteRecord) :
    (heartbeatNoted h s).putSite h.site w = (s.putSite h.site w).returnCredits h.site h.credits := by
  have hwrite := State.putSite_putSite (v := (s.site h.site).beat s.now h.alarm) hon h.site w s
  exact congrArg (State.returnCredits h.site h.credits) hwrite

theorem sorted_credits (h : TablesCanonical s) : s.egress.credits.sorted = true := by
  obtain ⟨-, -, -, -, -, -, -, -, -, -, -, hcredits, -⟩ := h
  exact (Tab.canonical_iff.mp hcredits).1

/-- Credits set are not changed by a return before. -/
theorem State.putCredits_returnCredits (h : s.egress.credits.sorted = true) (x n m : Nat) :
    (s.returnCredits x n).putCredits x m = s.putCredits x m := by
  simp only [State.returnCredits, State.putCredits, Tab.put_put _ _ h]

/-- Settles O35. -/
theorem heartbeatTaken : Obligations.HeartbeatTaken := by
  intro s h rest hinbox x r t since beaten run noting
  have hbeat : r.beat s.now h.alarm = beaten := SiteRecord.beat_eq s r h.alarm
  have hrun : r.runAfter s.now = run := SiteRecord.runAfter_eq s r
  rw [exec_heartbeat_of_cons hinbox]
  have htaken : r.state ≠ .off → .next (t.takeHeartbeat h) = noting (((heartbeatNoted h t).workState x r).count (.site x .heartbeats)) :=
    fun hon => congrArg _ (State.takeHeartbeat_of_on (s := t) hon)
  refine ⟨fun hoff => congrArg _ (if_pos hoff), fun hs => ?_, fun hs hlt => ?_, fun hs hle htables => ?_⟩
  · rw [htaken (by rcases hs with hs | hs <;> rw [hs] <;> decide), State.workState_of_settled hs, ← hbeat]
    rfl
  · have hon : r.state ≠ .off := by rcases hs with hs | hs <;> rw [hs] <;> decide
    have hnot : ¬r.cfg.recoveryCount ≤ r.runAfter (heartbeatNoted h t).now := Nat.not_le.mpr (hrun ▸ hlt)
    have hput : (heartbeatNoted h t).putSite x { r.beat s.now h.alarm with run := r.runAfter s.now } =
        (t.putSite x { beaten with run := run }).returnCredits x h.credits := by
      rw [hbeat, hrun]
      exact State.putSite_heartbeatNoted (s := t) hon _
    rw [htaken hon, State.workState_of_recovering hs, if_neg hnot, State.site_heartbeatNoted]
    exact congrArg (fun u : State => noting (u.count (.site x .heartbeats))) hput
  · have hon : r.state ≠ .off := by rcases hs with hs | hs <;> rw [hs] <;> decide
    have hpast : r.cfg.recoveryCount ≤ r.runAfter (heartbeatNoted h t).now := hrun ▸ hle
    have hput : (heartbeatNoted h t).putSite x { r.beat s.now h.alarm with state := .up, run := 0 } =
        (t.putSite x { beaten with state := .up, run := 0 }).returnCredits x h.credits := by
      rw [hbeat]
      exact State.putSite_heartbeatNoted (s := t) hon _
    have hsorted : s.egress.credits.sorted = true := sorted_credits htables
    rw [htaken hon, State.workState_of_recovering hs, if_pos hpast, State.site_heartbeatNoted]
    refine congrArg noting ?_
    refine (congrArg (fun u : State =>
      (((u.putCredits x r.cfg.initialCredit).reportUp x).count (.site x .recoveries)).count (.site x .heartbeats)) hput).trans ?_
    rw [State.putCredits_returnCredits (s := t.putSite x { beaten with state := .up, run := 0 }) hsorted]
    rfl

/-! ### Stalls -/

/-- Settles O36. -/
theorem stallExpiryStalls : Obligations.StallExpiryStalls := by
  refine ⟨fun s x d hup hlast hdue => (if_pos ⟨hup, ?_⟩).trans rfl, fun s x hnot => if_neg fun ⟨hup, hdue⟩ => ?_⟩
  · simp only [SiteRecord.stallDue, SiteRecord.stallDeadline, hlast, Option.map_some]
    exact decide_eq_true hdue
  · rcases hnot with hdown | hlater
    · exact hdown hup
    · cases hlast : (s.site x).lastHeartbeat with
      | none => simp [SiteRecord.stallDue, SiteRecord.stallDeadline, hlast] at hdue
      | some d =>
        simp only [SiteRecord.stallDue, SiteRecord.stallDeadline, hlast, Option.map_some, decide_eq_true_eq] at hdue
        exact Nat.not_le.mpr (hlater d hlast) hdue

/-! ### Admin actions -/

theorem exec_enable_of_valid (hx : validSite x = true) : exec (.enable x) s = .next (s.enableSite x) := if_pos hx

theorem exec_bar_of_valid (hx : validSite x = true) : exec (.bar x) s = .next (s.barSite x) := if_pos hx

theorem exec_remove_of_valid (hx : validSite x = true) : exec (.remove x) s = .next (s.removeSite x) := if_pos hx

theorem State.enableSite_of_off (hs : (s.site x).state = .off) :
    s.enableSite x = s.putSite x { s.site x with state := .waiting, lastHeartbeat := none, interval := 0, run := 0 } := by
  simp only [State.enableSite, hs]

theorem State.enableSite_of_barred (hs : (s.site x).state = .barred) :
    s.enableSite x = s.putSite x { s.site x with state := .waiting, run := 0 } := by
  simp only [State.enableSite, hs]

theorem State.enableSite_of_enabled (hs : (s.site x).state = .waiting ∨ (s.site x).state = .up ∨ (s.site x).state = .stalled) :
    s.enableSite x = s := by
  rcases hs with hs | hs | hs <;> simp only [State.enableSite, hs]

theorem State.barSite_of_up (hs : (s.site x).state = .up) :
    s.barSite x =
      (((s.putSite x { s.site x with state := .barred, run := 0 }).reportEntries x .leftUp).reportLeftReach x).orderFlush x := by
  simp only [State.barSite, hs]

theorem State.barSite_of_down (hs : (s.site x).state = .waiting ∨ (s.site x).state = .stalled) :
    s.barSite x = (s.putSite x { s.site x with state := .barred, run := 0 }).orderFlush x := by
  rcases hs with hs | hs <;> simp only [State.barSite, hs]

theorem State.barSite_of_out (hs : (s.site x).state = .off ∨ (s.site x).state = .barred) : s.barSite x = s := by
  rcases hs with hs | hs <;> simp only [State.barSite, hs]

/-- REMOVE of a site that is not OFF. -/
theorem State.removeSite_of_on (hs : (s.site x).state ≠ .off) :
    s.removeSite x =
      let t := s.putSite x { s.site x with state := .off, lastHeartbeat := none, interval := 0, run := 0, alarm := false }
      let u := ((t.putCredits x 0).orderFlush x).reportEntries x .removed
      (if (s.site x).state = .up then u.reportLeftReach x else u).reportChange .siteAlarm s.anyAlarm t.anyAlarm :=
  if_neg hs

/-- Settles O37. -/
theorem adminActions : Obligations.AdminActions := by
  intro s x hx r flush left
  rw [exec_enable_of_valid hx, exec_bar_of_valid hx, exec_remove_of_valid hx]
  refine ⟨fun hs => congrArg _ (State.enableSite_of_off hs), fun hs => congrArg _ (State.enableSite_of_barred hs),
    fun hs => congrArg _ (State.enableSite_of_enabled hs), fun hs => congrArg _ (State.barSite_of_up hs),
    fun hs => congrArg _ (State.barSite_of_down hs), fun hs => congrArg _ (State.barSite_of_out hs),
    fun hs => congrArg _ (if_pos hs), fun hs => congrArg _ ((State.removeSite_of_on hs).trans ?_)⟩
  by_cases hup : r.state = .up
  · rw [if_pos hup]
    exact congrArg (State.reportChange .siteAlarm s.anyAlarm _) (if_pos hup)
  · rw [if_neg hup, List.append_nil]
    exact congrArg (State.reportChange .siteAlarm s.anyAlarm _) (if_neg hup)

end Sys2Proof.Machine

/-! The reach unit and the egress scheduler (chapters 6 and 7): reach sets, relays, turns, flushes. -/

namespace Sys2Proof.Machine

variable {s t u : State} {x : Nat}

/-! ### Reach sets -/

theorem State.upSites_eq (s : State) : s.upSites = (List.range' 1 40).filter fun x => s.siteUp x := by
  have hsites : (List.range Config.siteCount).map (· + 1) = List.range' 1 40 := by decide
  rw [State.upSites, hsites]

/-- The UP sites that meet a test. -/
theorem State.upSites_filter (s : State) (p : Nat → Bool) :
    (s.upSites.filter fun x => p x) = (List.range' 1 40).filter fun x => s.siteUp x && p x := by
  rw [State.upSites_eq, List.filter_filter]
  exact List.filter_congr fun x _ => Bool.and_comm ..

theorem State.filter_of_all {p : Nat → Bool} (h : ∀ x, p x = true) :
    ((List.range' 1 40).filter fun x => s.siteUp x && p x) = s.upSites := by
  rw [State.upSites_eq]
  exact List.filter_congr fun x _ => by rw [h, Bool.and_true]

theorem filter_ne_nil_iff_any {α : Type} (l : List α) (p : α → Bool) : l.filter p ≠ [] ↔ l.any p = true := by
  simp

theorem any_or {α : Type} (l : List α) (p q : α → Bool) : (l.any fun y => p y || q y) = (l.any p || l.any q) := by
  induction l with
  | nil => rfl
  | cons y l ih => rw [List.any_cons, List.any_cons, List.any_cons, ih]; ac_rfl

/-- The sites in service of an entry, as the model and as the statements write it. -/
theorem Entry.firstReach_eq (e : Entry) {x : Nat} (hx : x ≠ 0) : e.firstReach x = (e.servedBy x || e.movingTo x) := by
  have hne : (x != 0) = true := bne_iff_ne.mpr hx
  unfold Entry.firstReach Entry.servedBy Entry.movingTo
  cases hs : e.state <;> cases hh : e.handover <;> simp [hne, Bool.beq_comm (a := x)]

/-- The sites the location engine gives an INDIVIDUAL burst of an entry's radio (R113). -/
theorem State.individualReach_of_entry {d : RadioId} {k : Nat} {e : Entry} (hl : s.lookup d = some (k, e)) :
    s.individualReach d =
      ((List.range' 1 40).filter fun x => s.siteUp x &&
          if s.upSites.any fun y => e.servedBy y || e.movingTo y then e.servedBy x || e.movingTo x
          else if s.upSites.any fun y => (candOf y e.cands).isSome then (candOf x e.cands).isSome
          else true,
        !s.upSites.any fun y => e.servedBy y || e.movingTo y || (candOf y e.cands).isSome) := by
  have hfirst : (s.upSites.filter fun x => e.firstReach x) = s.upSites.filter fun x => e.servedBy x || e.movingTo x := by
    refine List.filter_congr fun x hx => e.firstReach_eq ?_
    rw [State.upSites_eq, List.mem_filter, List.mem_range'_1] at hx
    omega
  have hflood : (s.upSites.any fun y => e.servedBy y || e.movingTo y || (candOf y e.cands).isSome) =
      ((s.upSites.any fun y => e.servedBy y || e.movingTo y) || s.upSites.any fun y => (candOf y e.cands).isSome) :=
    any_or ..
  simp only [State.individualReach, hl, hfirst, filter_ne_nil_iff_any, hflood]
  by_cases hserved : (s.upSites.any fun y => e.servedBy y || e.movingTo y) = true
  · simp only [hserved, if_true, Bool.true_or, Bool.not_true, State.upSites_filter]
  · rw [Bool.not_eq_true] at hserved
    by_cases hheld : (s.upSites.any fun y => (candOf y e.cands).isSome) = true
    · simp [hserved, hheld, State.upSites_filter]
    · rw [Bool.not_eq_true] at hheld
      simp only [hserved, hheld, Bool.false_eq_true, if_false, Bool.and_true, Bool.or_false, Bool.not_false]
      rw [State.upSites_eq]

/-- The sites of a GROUP burst (R112). -/
theorem State.groupReach_eq (s : State) (g : Talkgroup) :
    s.groupReach g = (List.range' 1 40).filter fun x => s.siteUp x &&
      match rowOf s.reach.rows g with
      | none => true
      | some k =>
        s.reach.floodOverride || (s.row k).flood || decide (0 < s.emergencyCount k) || inSet (s.row k).pinned x ||
          decide (0 < s.memberCount k x) := by
  unfold State.groupReach
  cases hrow : rowOf s.reach.rows g with
  | none => simp [State.upSites_eq]
  | some k =>
    dsimp only
    cases hflood : (s.reach.floodOverride || (s.row k).flood || decide (0 < s.emergencyCount k)) with
    | true => simp [State.upSites_eq]
    | false => simp [State.upSites_filter]

/-- The model's reach set is the statements'. -/
theorem State.reachSet_eq (s : State) (d : Downlink) :
    s.reachSet d = ((List.range' 1 40).filter fun x => reaches s d x, flooded s d) := by
  unfold State.reachSet reaches flooded
  cases hrun : s.mgmt.run with
  | load => simp [State.upSites_eq]
  | run =>
    cases htype : d.callType with
    | all => simp [State.upSites_eq]
    | ping => simp [State.upSites_eq]
    | individual =>
      cases hl : s.lookup d.dest with
      | none => simp [State.individualReach, hl, State.upSites_eq]
      | some p => simp [State.individualReach_of_entry hl]
    | group =>
      by_cases hall : d.dest.setWidth 16 = 0xFFFF#16
      · simp [hall, State.upSites_eq]
      · have hbeq : (d.dest.setWidth 16 == 0xFFFF#16) = false := beq_eq_false_iff_ne.mpr hall
        simp [hall, hbeq, State.groupReach_eq] <;> rfl

/-! ### Downlinks and relays -/

theorem State.offerCopies_eq (d : Downlink) (sites : List Nat) (s : State) : State.offerCopies d sites s = copiesOffered d sites s := by
  induction sites generalizing s with
  | nil => rfl
  | cons x xs ih =>
    have hstep : copiesOffered d (x :: xs) s =
        copiesOffered d xs
          (if (s.offerVoice x { site := x, burst := d }).2 = .admitted then
            (s.offerVoice x { site := x, burst := d }).1.count (.global .downlinkCopies)
          else (s.offerVoice x { site := x, burst := d }).1) := rfl
    rw [hstep, State.offerCopies]
    rcases s.offerVoice x { site := x, burst := d } with ⟨s1, _ | _ | _⟩ <;> exact ih _

/-- A DOWNLINK that the reach unit takes, by the statements' reach set. -/
theorem State.takeDownlink_eq (d : Downlink) (s : State) :
    s.takeDownlink d =
      if d.callType = .ping then s.count (.global .downlinksDiscarded)
      else
        let u := if flooded s d then s.count (.global .individualFloods) else s
        if ((List.range' 1 40).filter fun x => reaches s d x) = [] then u.count (.global .unreachedBursts)
        else copiesOffered d ((List.range' 1 40).filter fun x => reaches s d x) (u.count (.global .downlinksReplicated)) := by
  simp only [State.takeDownlink, State.reachSet_eq, State.offerCopies_eq]

theorem exec_downlink_of_cons {d : Downlink} {rest : List ReachFrame} (h : s.reach.inbox = .downlink d :: rest) :
    exec .downlink s = .next (({ s with reach.inbox := rest } : State).takeDownlink d) := by
  change execDownlink s = _
  rw [execDownlink, h]

theorem exec_relay_of_cons {r : Relay} {rest : List ReachFrame} (h : s.reach.inbox = .relay r :: rest) :
    exec .relay s = .next (({ s with reach.inbox := rest } : State).takeRelay r) := by
  change execRelay s = _
  rw [execRelay, h]

/-- Settles O38. -/
theorem reachFramesTaken : Obligations.ReachFramesTaken := by
  refine ⟨fun s d rest h => ?_, fun s r rest h => ?_⟩
  · intro t sites u
    rw [exec_downlink_of_cons h, State.takeDownlink_eq]
    rfl
  · intro t
    rw [exec_relay_of_cons h]
    have hoffered : (s.site r.site).state ≠ .barred → t.takeRelay r = (t.offerControl r.site (.relay r)).1 := fun hbarred => if_neg hbarred
    have hlane : (s.site r.site).state ≠ .off → (s.site r.site).state ≠ .barred →
        (s.site r.site).state = .waiting ∨ (s.site r.site).state = .up ∨ (s.site r.site).state = .stalled := by
      cases (s.site r.site).state <;> simp
    refine ⟨fun hbarred => congrArg _ (if_pos hbarred), fun hbarred htakes => ?_, fun hbarred hoff hfull => ?_, fun hoff => ?_⟩
    · rw [hoffered hbarred, State.offerControl_of_takes (s := t) htakes]
      rfl
    · have hopen := State.controlVerdict_of_open (s := t) (State.laneOpen_of_ne (s := t) hoff hbarred)
      have hroom : ¬((t.controlLane r.site).length < 16 ∧ t.egress.poolUsed < 1536) := fun hroom => hfull ⟨hlane hoff hbarred, hroom⟩
      rw [hoffered hbarred, State.offerControl_of_verdict hopen, if_neg hroom]
    · have hclosed := State.controlVerdict_of_closed ((t.laneOpen_eq_false_iff r.site).mpr (.inl hoff))
      rw [hoffered (fun hbarred => by rw [hoff] at hbarred; cases hbarred), State.offerControl_of_noSite hclosed]

/-! ### Flushes and site changes -/

theorem exec_siteUpEgress_of_report {r : EgressReport} (h : s.nextEgressReport x = some r) :
    exec (.siteUpEgress x) s = .next (if r.news = .up then s.takeEgressReport r else s) := by
  change execSiteUpEgress x s = _
  simp only [execSiteUpEgress, h]
  cases r.news <;> rfl

theorem exec_flush_of_report {r : EgressReport} (h : s.nextEgressReport x = some r) :
    exec (.flush x) s = .next (if r.news = .flush then (s.takeEgressReport r).flushLanes x else s) := by
  change execFlush x s = _
  simp only [execFlush, h]
  cases r.news <;> rfl

/-- Settles O41. -/
theorem flushAndSiteChanges : Obligations.FlushAndSiteChanges := by
  refine ⟨fun s x h => ⟨?_, ?_⟩, fun s x h => ⟨?_, ?_⟩, fun s x h => ⟨?_, ?_⟩, fun s => ?_⟩
  · rw [exec_flush_of_report h]
    rfl
  · rw [exec_siteUpEgress_of_report h]
    rfl
  · rw [exec_siteUpEgress_of_report h]
    rfl
  · rw [exec_flush_of_report h]
    rfl
  · change execSiteUpEgress x s = _
    rw [execSiteUpEgress, h]
  · change execFlush x s = _
    rw [execFlush, h]
  · rw [List.drop_one]
    rfl

end Sys2Proof.Machine

/-! The transmitters (R127 to R129) and the bytes of what they send (tables 8-4, 8-5, 8-7, 8-8). -/

namespace Sys2Proof.Machine

variable {s t u : State} {x : Nat}

/-! ### Turns of the site port -/

theorem PortState.live_eq_true_iff_takes (s : State) (p : Port) : (s.portState p).live = true ↔ PortTakes s p :=
  PortState.live_iff _

theorem State.turnReady_iff (s : State) (x : Nat) : s.turnReady x = true ↔ TurnReady s x := by
  unfold State.turnReady State.released State.voiceTurn TurnReady
  cases hlane : s.controlLane x <;> simp [State.siteUp, List.length_pos_iff, and_assoc]

/-- The first site after the turn pointer that has a turn ready. -/
theorem State.find_turnReady {i : Nat} (hi : i < 40) (hready : TurnReady s ((s.egress.pointer + i) % 40 + 1))
    (hless : ∀ j < i, ¬TurnReady s ((s.egress.pointer + j) % 40 + 1)) :
    ((sitesAfter s.egress.pointer).find? fun x => s.turnReady x) = some ((s.egress.pointer + i) % 40 + 1) := by
  rw [sitesAfter, List.find?_map, Option.map_eq_some_iff]
  refine ⟨i, List.find?_range_eq_some.mpr ⟨?_, List.mem_range.mpr hi, fun j hj => ?_⟩, rfl⟩
  · exact (s.turnReady_iff _).mpr hready
  · have hnot := (not_congr (s.turnReady_iff _)).mpr (hless j hj)
    rw [Bool.not_eq_true] at hnot
    exact (congrArg Bool.not hnot : _)

theorem State.find_turnReady_none (h : ∀ x, 1 ≤ x → x ≤ 40 → ¬TurnReady s x) :
    ((sitesAfter s.egress.pointer).find? fun x => s.turnReady x) = none := by
  rw [List.find?_eq_none]
  intro x hx
  obtain ⟨i, -, rfl⟩ := List.mem_map.mp hx
  have hlt := Nat.mod_lt (s.egress.pointer + i) (y := 40) (by decide)
  exact (not_congr (s.turnReady_iff _)).mpr (h _ (Nat.le_add_left ..) hlt)

theorem exec_siteTurn_of_ready (htx : s.egress.siteTx = none) (hport : PortTakes s .site)
    (hx : ((sitesAfter s.egress.pointer).find? fun x => s.turnReady x) = some x) : exec .siteTurn s = .next (s.takeTurn x) := by
  refine (if_pos ⟨htx, (PortState.live_eq_true_iff_takes s .site).mpr hport⟩).trans ?_
  rw [hx]

/-- A control turn: one frame. -/
theorem State.takeTurn_of_control {f : ControlFrame} {lane : List ControlFrame} (h : s.controlLane x = f :: lane) :
    s.takeTurn x =
      ({ s with
          egress.control := s.egress.control.put [] x lane
          egress.poolUsed := s.egress.poolUsed - 1
          egress.credits := s.egress.credits.put 0 x (s.credits x - 1)
          egress.pointer := x
          egress.siteTx := some { site := x, frames := [f.bytes s.mgmt.unit] } } : State).count (.site x .framesSent) := by
  simp only [State.takeTurn, State.turnSize, State.turnFrames, h]
  rfl

/-- A voice turn: as many frames as the release threshold lets go. -/
theorem State.takeTurn_of_voice (h : s.controlLane x = []) :
    s.takeTurn x =
      let m := min (s.site x).cfg.releaseThreshold (s.voiceLane x).length
      ({ s with
          egress.voice := s.egress.voice.put [] x ((s.voiceLane x).drop m)
          egress.poolUsed := s.egress.poolUsed - m
          egress.credits := s.egress.credits.put 0 x (s.credits x - m)
          egress.pointer := x
          egress.siteTx := some { site := x, frames := ((s.voiceLane x).take m).map fun f => f.bytes s.mgmt.unit } } :
          State).countBy m (.site x .framesSent) := by
  have hnil : (s.controlLane x).length = 0 := by rw [h]; rfl
  simp only [State.takeTurn, State.turnSize, State.turnFrames, hnil, if_true, ne_eq, not_true_eq_false, if_false]
  rfl

/-! ### The bytes sent -/

theorem flagByte_three_eq (a b c : Bool) : flagByte [a, b, c] = bitsByte [a, b, c] := flagByte_eq_bitsByte _ (by simp)

/-- The codes of table 8-5 in what is sent. -/
theorem ControlFrame.bytes_directive (d : Directive) (unit : BitVec 6) :
    (ControlFrame.directive d).bytes unit =
      frameBytes 0x21 (unit.setWidth 8)
        ([byte d.site, d.kind.code] ++ bytes3 d.radio.toNat ++ bytes2 d.talkgroup.toNat ++
          [byte d.other, d.number, if d.tableFull then 1 else 0]) := by
  rw [← flagByte_one]
  rfl

theorem DownlinkCopy.bytes_eq (d : DownlinkCopy) (unit : BitVec 6) :
    d.bytes unit =
      frameBytes 0x22 (unit.setWidth 8)
        ([byte d.site, d.burst.callType.code] ++ bytes3 d.burst.dest.toNat ++
          [d.burst.tag, d.burst.seq, if d.burst.endFlag then 1 else 0, byte d.burst.payload.length] ++ d.burst.payload) := by
  rw [← flagByte_one]
  rfl

theorem CoreFrame.bytes_uplink (u : Uplink) (unit : BitVec 6) :
    (CoreFrame.uplink u).bytes unit =
      frameBytes 0x31 (unit.setWidth 8)
        ([byte u.site] ++ bytes3 u.radio.toNat ++ [u.callType.code] ++ bytes3 u.dest.toNat ++
          [u.tag, u.seq, byte u.quality, byte u.copies, bitsByte [u.endFlag, u.emergency, u.unvoted], byte u.payload.length] ++
          u.payload) := by
  rw [← flagByte_three_eq]
  rfl

theorem CoreFrame.bytes_alert (a : Alert) (unit : BitVec 6) :
    (CoreFrame.alert a).bytes unit =
      frameBytes 0x33 (unit.setWidth 8)
        ([byte (alertCode a.cls), a.flags] ++ ((List.range 5).map fun i => a.stalls.extractLsb' (8 * i) 8) ++ bytes4 a.epoch.toNat) := by
  rw [← siteSetBytes_eq_extract]
  rfl

/-! ### The core port -/

theorem exec_coreTake_of_takes (htx : s.egress.coreTx = none) (hport : PortTakes s .core) {f : CoreFrame} {rest : List CoreFrame}
    (hcore : s.egress.core = f :: rest) :
    exec .coreTake s =
      .next
        (({ s with
            egress.core := rest
            egress.poolUsed := s.egress.poolUsed - 1
            egress.coreTx := some (f.bytes s.mgmt.unit) } : State).count (.global .coreFramesSent)) := by
  refine (if_pos ⟨htx, (PortState.live_eq_true_iff_takes s .core).mpr hport⟩).trans ?_
  rw [hcore]

/-- Settles O40. -/
theorem transmittersTakeAndSend : Obligations.TransmittersTakeAndSend := by
  refine ⟨fun s i htx hport hi hless => ?_, fun s hnot => ?_, fun s f rest htx hport hcore => exec_coreTake_of_takes htx hport hcore,
    fun s hnot => ?_, fun s => ⟨rfl, rfl⟩, fun unit => ?_⟩
  · intro x hready
    have hturn := exec_siteTurn_of_ready htx hport (State.find_turnReady hi hready hless)
    exact ⟨fun f lane h => hturn.trans (congrArg _ (State.takeTurn_of_control h)),
      fun h => hturn.trans (congrArg _ (State.takeTurn_of_voice h))⟩
  · change execSiteTurn s = _
    unfold execSiteTurn
    split
    · next hfree =>
      obtain ⟨htx, hlive⟩ := hfree
      rcases hnot with hbusy | hport | hnone
      · exact absurd htx hbusy
      · exact absurd ((PortState.live_eq_true_iff_takes s .site).mp hlive) hport
      · rw [State.find_turnReady_none hnone]
    · rfl
  · change execCoreTake s = _
    unfold execCoreTake
    split
    · next hfree =>
      obtain ⟨htx, hlive⟩ := hfree
      rcases hnot with hbusy | hport | hempty
      · exact absurd htx hbusy
      · exact absurd ((PortState.live_eq_true_iff_takes s .core).mp hlive) hport
      · rw [hempty]
    · rfl
  · intro wire number2 number3 number4 callCode directiveCode noticeCode causeCode classCode resultCode
    refine ⟨fun d => ?_, fun r => rfl, fun d => ?_, fun u => ?_, fun n => ?_, fun a => ?_, fun r => ?_⟩
    · rw [ControlFrame.bytes_directive]
      have hcode : d.kind.code = directiveCode d.kind := by cases d.kind <;> rfl
      rw [hcode]
      rfl
    · have hcode : d.burst.callType.code = callCode d.burst.callType := by cases d.burst.callType <;> rfl
      rw [DownlinkCopy.bytes_eq, hcode]
      rfl
    · have hcode : u.callType.code = callCode u.callType := by cases u.callType <;> rfl
      rw [CoreFrame.bytes_uplink, hcode]
      rfl
    · have hkind : n.kind.code = noticeCode n.kind := by cases n.kind <;> rfl
      have hcause : n.cause.code = causeCode n.cause := by cases n.cause <;> rfl
      change frameBytes 0x32 (unit.setWidth 8) n.encode = _
      rw [Notice.encode, hkind, hcause]
      rfl
    · have hcode : byte (alertCode a.cls) = classCode a.cls := by cases a.cls <;> rfl
      rw [CoreFrame.bytes_alert, hcode]
      rfl
    · have hcode : r.result.code = resultCode r.result := by cases r.result <;> rfl
      change frameBytes 0x42 (unit.setWidth 8) r.encode = _
      rw [Response.encode, hcode]
      rfl

end Sys2Proof.Machine

/-! Requests: the queue of four and the checks of R142. -/

namespace Sys2Proof.Machine

variable {s t u : State} {r : Request} {rest : List Request}

/-! ### The checks, one by one -/

theorem State.precheck_of_length (h : ¬LengthRight r) (s : State) : s.precheck r = some .badValue := by
  have hlength : r.lengthOk = false := Bool.eq_false_iff.mpr ((not_congr (Request.lengthOk_iff r)).mpr h)
  simp [State.precheck, hlength]

theorem Request.heldByBatch_iff (r : Request) :
    r.heldByBatch = true ↔
      r.kind = .write ∨ r.kind = .batch ∨ r.kind = .control ∨ r.kind = .radioAction ∨ r.kind = .clearCounters := by
  unfold Request.heldByBatch
  cases r.kind <;> simp

theorem State.precheck_of_batch (hlength : LengthRight r) (hbatch : s.mgmt.batch ≠ none) (hheld : r.heldByBatch = true) :
    s.precheck r = some .batchActive := by
  simp [State.precheck, (Request.lengthOk_iff r).mpr hlength, hheld, Option.isSome_iff_ne_none.mpr hbatch]

/-- The batch in progress does not hold the request off. -/
theorem batchHolds_eq_false (h : s.mgmt.batch = none ∨ ¬r.heldByBatch = true) : (s.mgmt.batch.isSome && r.heldByBatch) = false := by
  rcases h with h | h
  · rw [h]; rfl
  · rw [Bool.not_eq_true] at h
    rw [h, Bool.and_false]

theorem Request.badCode_eq (r : Request) : r.badCode = if r.kind = .read ∨ r.kind = .write then .badTable else .badValue := by
  unfold Request.badCode
  cases r.kind <;> rfl

theorem State.precheck_of_code (hlength : LengthRight r) (hbatch : s.mgmt.batch = none ∨ ¬r.heldByBatch = true) (h : CodeUndefined r) :
    s.precheck r = some (if r.kind = .read ∨ r.kind = .write then .badTable else .badValue) := by
  have hcode : r.codeOk = false := (Request.codeOk_eq_false_iff r).mpr (.inl h)
  rw [← Request.badCode_eq]
  simp [State.precheck, (Request.lengthOk_iff r).mpr hlength, batchHolds_eq_false hbatch, hcode]

/-- A body of the right length holds its kind's code. -/
theorem Request.codeOk_of_defined (hlength : LengthRight r) (h : ¬CodeUndefined r) : r.codeOk = true := by
  refine Bool.of_not_eq_false fun hfalse => ?_
  rcases (Request.codeOk_eq_false_iff r).mp hfalse with hcode | ⟨hbody, hkind⟩
  · exact h hcode
  · unfold LengthRight at hlength
    rcases hkind with hkind | hkind | hkind | hkind <;>
    · rw [hkind] at hlength
      obtain ⟨code, tail, hcons, -⟩ := hlength
      rw [hbody] at hcons
      cases hcons

theorem Request.heldByLock_of_locked
    (h : r.kind = .write ∨ r.kind = .batch ∨ (r.kind = .control ∧ (r.body = [1] ∨ r.body = [2]))) : r.heldByLock = true := by
  unfold Request.heldByLock Request.code
  rcases h with h | h | ⟨h, hbody | hbody⟩
  · rw [h]
  · rw [h]
  · rw [h, hbody]; rfl
  · rw [h, hbody]; rfl

theorem State.precheck_of_locked (hlength : LengthRight r) (hbatch : s.mgmt.batch = none) (hcode : ¬CodeUndefined r)
    (hlock : s.mgmt.lock = true) (hheld : r.heldByLock = true) : s.precheck r = some .locked := by
  rw [State.precheck_of_ok ((Request.lengthOk_iff r).mpr hlength) (Request.codeOk_of_defined hlength hcode),
    batchHolds_eq_false (.inl hbatch), hlock, hheld]
  rfl

/-! ### The rows that complete requests -/

theorem completedKind_of_completes {c : Instr} (h : Completes c r) : completedKind c = some r.kind := by
  cases c <;> simp_all [Completes, completedKind]

/-- A row that serves the front request refuses it with the result of the check it fails. -/
theorem exec_of_serves_of_precheck {c : Instr} {res : Result} (hfront : Front s r rest) (hserves : Serves c r)
    (hcheck : (taken s rest).precheck r = some res) :
    exec c s = .next (answeredWith r res (if r.kind = .batch then [0] else []) (taken s rest)) := by
  have hkind : completedKind c = some r.kind := by
    rcases hserves with hcompletes | ⟨hkind, -⟩
    · exact completedKind_of_completes hcompletes
    · exact hkind
  obtain ⟨isFor, effect, hexec, hfor⟩ := exec_of_completedKind c _ hkind
  rw [hexec, State.complete_of_refused hfront ((hfor r).mpr hserves) hcheck]

/-- Settles O42. -/
theorem requestsQueuedAndChecked : Obligations.RequestsQueuedAndChecked := by
  refine ⟨fun s r rest hinbox => ?_, fun c s r rest hfront => ?_⟩
  · have hexec : exec .mgmtRequest s =
        if s.mgmt.requests.length < Config.requestDepth then
          .next { s with mgmt.inbox := rest, mgmt.requests := s.mgmt.requests ++ [r] }
        else .next (({ s with mgmt.inbox := rest } : State).count (.global .requestOverflows)) := by
      change execMgmtRequest s = _
      rw [execMgmtRequest, hinbox]
    rw [hexec]
    exact ⟨fun hroom => if_pos hroom, fun hfull => if_neg (Nat.not_lt.mpr hfull)⟩
  · intro refused heldOff locked
    have hheld : r.heldByBatch = true ↔ heldOff := Request.heldByBatch_iff r
    refine ⟨fun hserves => ⟨fun hlength => ?_, fun hlength hbatch hoff => ?_, fun hlength hbatch hcode => ?_,
      fun hlength hbatch hcode hlock hlocked => ?_⟩, fun k hkind hnot => ?_⟩
    · exact exec_of_serves_of_precheck hfront hserves (State.precheck_of_length hlength _)
    · exact exec_of_serves_of_precheck hfront hserves (State.precheck_of_batch (s := taken s rest) hlength hbatch (hheld.mpr hoff))
    · exact exec_of_serves_of_precheck hfront hserves
        (State.precheck_of_code (s := taken s rest) hlength (hbatch.imp_right (not_congr hheld).mpr) hcode)
    · exact exec_of_serves_of_precheck hfront hserves
        (State.precheck_of_locked (s := taken s rest) hlength hbatch hcode hlock (Request.heldByLock_of_locked hlocked))
    · obtain ⟨isFor, effect, hexec, hfor⟩ := exec_of_completedKind c k hkind
      rw [hexec, State.complete_of_front _ _ s r rest hfront, if_neg ((not_congr (hfor r)).mpr hnot)]

end Sys2Proof.Machine

/-! WRITE requests and BATCH (R44, R46, R70, R109, R110, R145, R146). -/

namespace Sys2Proof.Machine

variable {s t u : State} {r : Request} {rest : List Request}

/-! ### A WRITE that passes its checks -/

theorem numberOf_two (b1 b0 : Byte) : numberOf [b1, b0] = b1.toNat * 256 + b0.toNat := by
  simp [numberOf]

theorem numberOf_three (b2 b1 b0 : Byte) : numberOf [b2, b1, b0] = b2.toNat * 65536 + b1.toNat * 256 + b0.toNat := by
  simp only [numberOf, List.foldl_cons, List.foldl_nil]
  omega

/-- A request with a defined code and the length it calls for passes every check of an unheld part. -/
theorem State.precheck_of_unheld (hlength : r.lengthOk = true) (hcode : r.codeOk = true) (h : Unheld s) : s.precheck r = none := by
  obtain ⟨hbatch, hlock⟩ := h
  rw [State.precheck_of_ok hlength hcode, batchHolds_eq_false (.inl hbatch), hlock]
  rfl

/-- A WRITE completed by the row of its table. -/
theorem State.complete_write {f : Nat × List Byte → State → State × Result} {code k1 k0 : Byte} {fields : List Byte}
    (hfront : Front s r rest) (hheld : Unheld s) (hkind : r.kind = .write) (hbody : r.body = code :: k1 :: k0 :: fields)
    (hlength : writeLength code.toNat = some fields.length) :
    s.complete (Request.isRow .write code.toNat) (changing parseWrite f) =
      answeredWith r (f (k1.toNat * 256 + k0.toNat, fields) (taken s rest)).2 []
        (f (k1.toNat * 256 + k0.toNat, fields) (taken s rest)).1 := by
  have hcode : r.code = some code.toNat := by rw [Request.code, hbody]; rfl
  have hfor : Request.isRow .write code.toNat r = true := by simp [Request.isRow, Request.isFor, hkind, hcode]
  have hlengthOk : r.lengthOk = true := by
    simp only [Request.lengthOk, hkind, hcode, codeLength, hlength, hbody, Option.map_some, List.length_cons, beq_iff_eq]
    omega
  have hcodeOk : r.codeOk = true := by simp [Request.codeOk, hkind, hcode, codeLength, hlength]
  rw [State.complete_of_passed hfront hfor (State.precheck_of_unheld (s := taken s rest) hlengthOk hcodeOk hheld)]
  simp only [changing, hbody, parseWrite, numberOf_two]

/-! ### Settings -/

theorem clamp_zero (hi n : Nat) : clamp 0 hi n = min hi n := Nat.zero_max _

/-- A byte is never above 255. -/
theorem clamp_byte (lo : Nat) (b : Byte) : clamp lo 255 b.toNat = max lo b.toNat := by
  have := b.isLt
  unfold clamp
  omega

/-- A TIMING record written. -/
theorem State.writeTimingRecord_eq (key : Nat) (adj hold hang stale purge : Byte) (s : State) :
    s.writeTimingRecord key [adj, hold, hang, stale, purge] =
      if key = 0 then
        ({ s with
            loc.timing :=
              { epochAdjust := min 63 adj.toNat
                voteHold := min 250 hold.toNat
                callHang := max 2 (min 32 hang.toNat)
                staleLimit := max 1 stale.toNat
                purgeLimit := max 1 purge.toNat } }, .ok)
      else (s, .badKey) := by
  simp only [State.writeTimingRecord, parseTimingFields, clamp_zero, clamp_byte]
  rfl

/-- The policy of a class number stored (R44). -/
def policyStored (key : Nat) (p : ClassPolicy) (s : State) : State × Result :=
  match RadioClass.ofCode key with
  | some c => ({ s with loc.policies := s.loc.policies.withPolicy c p }, .ok)
  | none => (s, .badKey)

/-- A CLASS record written. -/
theorem State.writeClassRecord_eq (key : Nat) (w d h dw f1 f0 hold lost tmo retry : Byte) (s : State) :
    s.writeClassRecord key [w, d, h, dw, f1, f0, hold, lost, tmo, retry] =
      policyStored key
        { weight := max 1 (min 16 w.toNat)
          decay := min 63 d.toNat
          hysteresis := h.toNat
          dwell := min 31 dw.toNat
          floor := min 1008 (f1.toNat * 256 + f0.toNat)
          shadowHold := max 1 (min 31 hold.toNat)
          lostLimit := max 1 lost.toNat
          roamTimeout := max 1 (min 15 tmo.toNat)
          retryLimit := min 3 retry.toNat } s := by
  have hh : clamp 0 255 h.toNat = h.toNat := (clamp_byte 0 h).trans (Nat.zero_max _)
  simp only [State.writeClassRecord, parseClassFields, numberOf_two, hh, clamp_zero, clamp_byte]
  rfl

/-- The answer to a CLASS write, by its key. -/
theorem answeredWith_policyStored (r : Request) (key : Nat) (p : ClassPolicy) (s : State) :
    answeredWith r (policyStored key p s).2 [] (policyStored key p s).1 =
      match key with
      | 0 => answeredWith r .ok [] { s with loc.policies := { s.loc.policies with ground := p } }
      | 1 => answeredWith r .ok [] { s with loc.policies := { s.loc.policies with vehicle := p } }
      | 2 => answeredWith r .ok [] { s with loc.policies := { s.loc.policies with aircraft := p } }
      | 3 => answeredWith r .ok [] { s with loc.policies := { s.loc.policies with command := p } }
      | _ => answeredWith r .badKey [] s := by
  match key with
  | 0 | 1 | 2 | 3 => rfl
  | n + 4 => rfl

theorem validSite_iff (x : Nat) : validSite x = true ↔ 1 ≤ x ∧ x ≤ 40 := by simp [validSite, Config.siteCount]

/-- The admin action that a SITE write's byte names. -/
theorem State.admin_ofCode (x : Nat) (adm : Byte) (s : State) :
    s.admin x (AdminAction.ofCode adm.toNat) =
      if adm = 1 then s.enableSite x else if adm = 2 then s.barSite x else if adm = 3 then s.removeSite x else s := by
  have hcode : ∀ n : Byte, adm = n ↔ adm.toNat = n.toNat := fun n => BitVec.toNat_inj.symm
  simp only [hcode]
  generalize adm.toNat = n
  match n with
  | 0 | 1 | 2 | 3 => rfl
  | n + 4 => simp [AdminAction.ofCode, State.admin]

/-- A SITE record written, with its admin action. -/
theorem State.writeSiteRecord_eq (key : Nat) (off bias r1 r0 t1 t0 rec cr th depth adm : Byte) (s : State) :
    s.writeSiteRecord key [off, bias, r1, r0, t1, t0, rec, cr, th, depth, adm] =
      let cfg : SiteConfig :=
        { offset := max (-16) (min 15 off.toInt)
          bias := max (-64) (min 63 bias.toInt)
          roamInLimit := min 2048 (r1.toNat * 256 + r0.toNat)
          stallLimit := max 100 (min 60000 (t1.toNat * 256 + t0.toNat))
          recoveryCount := max 1 (min 7 rec.toNat)
          initialCredit := max 1 cr.toNat
          releaseThreshold := max 1 (min 32 th.toNat)
          voiceDepth := max 8 (min 96 depth.toNat) }
      let u := s.putSite key { s.site key with cfg := cfg }
      if 1 ≤ key ∧ key ≤ 40 then
        (if adm = 1 then u.enableSite key else if adm = 2 then u.barSite key else if adm = 3 then u.removeSite key else u, .ok)
      else (s, .badKey) := by
  simp only [State.writeSiteRecord, parseSiteFields, numberOf_two, clamp_zero, clamp_byte, State.admin_ofCode, validSite_iff]
  rfl

theorem answeredWith_ite {c : Prop} [Decidable c] (r : Request) (a b : State × Result) (body : List Byte) :
    answeredWith r (if c then a else b).2 body (if c then a else b).1 =
      if c then answeredWith r a.2 body a.1 else answeredWith r b.2 body b.1 := by
  split <;> rfl

/-- Settles O44. -/
theorem settingsWritten : Obligations.SettingsWritten := by
  intro s r rest k1 k0 hfront hheld hkind key t
  refine ⟨fun adj hold hang stale purge hbody => ?_, fun w d h dw f1 f0 hold lost tmo retry hbody => ?_,
    fun off bias r1 r0 t1 t0 rec cr th depth adm hbody => ?_⟩
  · refine congrArg Host.Outcome.next ((State.complete_write hfront hheld hkind hbody rfl).trans ?_)
    rw [State.writeTimingRecord_eq, answeredWith_ite]
  · intro p
    refine congrArg Host.Outcome.next ((State.complete_write hfront hheld hkind hbody rfl).trans ?_)
    rw [State.writeClassRecord_eq, answeredWith_policyStored]
    rfl
  · intro cfg u
    refine congrArg Host.Outcome.next ((State.complete_write hfront hheld hkind hbody rfl).trans ?_)
    rw [State.writeSiteRecord_eq, answeredWith_ite]
    rfl

end Sys2Proof.Machine

/-! WRITE of RANGE and GROUP records (R22, R109, R110). -/

namespace Sys2Proof.Machine

variable {s t u : State} {r : Request} {rest : List Request}

/-! ### Range records -/

/-- The number that three bytes spell. -/
def number24 (b2 b1 b0 : Byte) : Nat := b2.toNat * 65536 + b1.toNat * 256 + b0.toNat

theorem word24_eq (b2 b1 b0 : Byte) : word24 b2 b1 b0 = BitVec.ofNat 24 (number24 b2 b1 b0) := by
  rw [word24, numberOf_three]
  rfl

theorem number24_lt (b2 b1 b0 : Byte) : number24 b2 b1 b0 < 2 ^ 24 := by
  have h2 := b2.isLt
  have h1 := b1.isLt
  have h0 := b0.isLt
  unfold number24
  omega

theorem word24_toNat (b2 b1 b0 : Byte) : (word24 b2 b1 b0).toNat = number24 b2 b1 b0 := by
  rw [word24_eq, BitVec.toNat_ofNat, Nat.mod_eq_of_lt (number24_lt b2 b1 b0)]

theorem word24_eq_iff (b2 b1 b0 : Byte) (v : BitVec 24) : word24 b2 b1 b0 = v ↔ number24 b2 b1 b0 = v.toNat := by
  rw [← BitVec.toNat_inj, word24_toNat]

theorem RadioClass.ofCode_eq (n : Nat) :
    RadioClass.ofCode n =
      if 3 < n then none else some (if n = 0 then .ground else if n = 1 then .vehicle else if n = 2 then .aircraft else .command) := by
  match n with
  | 0 | 1 | 2 | 3 => rfl
  | n + 4 => rfl

/-- The IDs that a RANGE write refuses (R22). -/
def IdsRefused (first last : Nat) : Prop := first = 0 ∨ first = 0xFFFFFF ∨ last = 0 ∨ last = 0xFFFFFF ∨ last < first

theorem State.writeRangeRecord_of_key {key : Nat} (hkey : 15 < key) (f2 f1 f0 l2 l1 l0 c fl : Byte) (s : State) :
    s.writeRangeRecord key [f2, f1, f0, l2, l1, l0, c, fl] = (s, .badKey) := by
  simp only [State.writeRangeRecord, parseRangeFields]
  exact if_pos hkey

/-- The check of the IDs of a RANGE write fails. -/
theorem rangeIds_iff (f2 f1 f0 l2 l1 l0 : Byte) :
    (!validRadio (word24 f2 f1 f0) || !validRadio (word24 l2 l1 l0) || decide (word24 l2 l1 l0 < word24 f2 f1 f0)) = true ↔
      IdsRefused (number24 f2 f1 f0) (number24 l2 l1 l0) := by
  have hinvalid : ∀ w : RadioId, (!validRadio w) = true ↔ w = 0 ∨ w = 0xFFFFFF := fun w => by
    rw [Bool.not_eq_true', ← Bool.not_eq_true, validRadio_iff]
    exact Decidable.not_and_iff_not_or_not.trans (or_congr Decidable.not_not Decidable.not_not)
  rw [Bool.or_eq_true, Bool.or_eq_true, hinvalid, hinvalid, decide_eq_true_iff, BitVec.lt_def, word24_toNat, word24_toNat,
    word24_eq_iff, word24_eq_iff, word24_eq_iff, word24_eq_iff]
  simp only [IdsRefused, or_assoc]
  rfl

theorem State.writeRangeRecord_of_bad {key : Nat} (hkey : key ≤ 15) {f2 f1 f0 l2 l1 l0 c : Byte}
    (hbad : IdsRefused (number24 f2 f1 f0) (number24 l2 l1 l0) ∨ 3 < c.toNat) (fl : Byte) (s : State) :
    s.writeRangeRecord key [f2, f1, f0, l2, l1, l0, c, fl] = (s, .badValue) := by
  simp only [State.writeRangeRecord, parseRangeFields]
  rw [if_neg (Nat.not_le.mpr (Nat.lt_succ_of_le hkey))]
  split
  · rfl
  next hids =>
    rw [rangeIds_iff] at hids
    rw [RadioClass.ofCode_eq, if_pos (hbad.resolve_left hids)]

theorem State.writeRangeRecord_of_good {key : Nat} (hkey : key ≤ 15) {f2 f1 f0 l2 l1 l0 c : Byte}
    (hgood : ¬(IdsRefused (number24 f2 f1 f0) (number24 l2 l1 l0) ∨ 3 < c.toNat)) (fl : Byte) (s : State) :
    s.writeRangeRecord key [f2, f1, f0, l2, l1, l0, c, fl] =
      ({ s with
          loc.ranges :=
            s.loc.ranges.put ClassRange.default key
              { first := word24 f2 f1 f0
                last := word24 l2 l1 l0
                cls := if c.toNat = 0 then .ground else if c.toNat = 1 then .vehicle else if c.toNat = 2 then .aircraft else .command
                valid := fl.getLsbD 0 } }, .ok) := by
  simp only [State.writeRangeRecord, parseRangeFields]
  rw [if_neg (Nat.not_le.mpr (Nat.lt_succ_of_le hkey))]
  split
  next hids =>
    rw [rangeIds_iff] at hids
    exact absurd (.inl hids) hgood
  next =>
    rw [RadioClass.ofCode_eq, if_neg fun h => hgood (.inr h)]

/-- Settles O45. -/
theorem rangeRecordWritten : Obligations.RangeRecordWritten := by
  intro s r rest k1 k0 f2 f1 f0 l2 l1 l0 c fl hfront hheld hkind hbody key first last t bad
  have hexec : exec .writeRange s =
      .next (answeredWith r (t.writeRangeRecord key [f2, f1, f0, l2, l1, l0, c, fl]).2 []
        (t.writeRangeRecord key [f2, f1, f0, l2, l1, l0, c, fl]).1) :=
    congrArg Host.Outcome.next (State.complete_write hfront hheld hkind hbody rfl)
  have hrefused : bad ↔ IdsRefused (number24 f2 f1 f0) (number24 l2 l1 l0) ∨ 3 < c.toNat := by
    simp only [IdsRefused, or_assoc]
    rfl
  have hcode : ∀ n : Byte, c = n ↔ c.toNat = n.toNat := fun n => BitVec.toNat_inj.symm
  rw [hexec]
  refine ⟨fun hkey => ?_, fun hkey hbad => ?_, fun hkey hgood => ?_⟩
  · rw [State.writeRangeRecord_of_key hkey]
  · rw [State.writeRangeRecord_of_bad hkey (hrefused.mp hbad)]
  · rw [State.writeRangeRecord_of_good hkey ((not_congr hrefused).mp hgood)]
    simp only [hcode, word24_eq]
    rfl

/-! ### Group rows -/

/-- A talkgroup that no row may have (R109). -/
def BadTalkgroup (new : GroupRow) : Prop := new.valid = true ∧ (new.talkgroup = 0 ∨ new.talkgroup = 0xFFFF)

/-- Another row has the talkgroup (R105, R109). -/
def DuplicateRow (s : State) (key : Nat) (new : GroupRow) : Prop :=
  new.valid = true ∧ ∃ p ∈ s.reach.rows, p.1 ≠ key ∧ p.2.valid = true ∧ p.2.talkgroup = new.talkgroup

/-- The row counts entries and would lose its talkgroup (R109). -/
def RowHeld (s : State) (key : Nat) (new : GroupRow) : Prop :=
  (s.row key).valid = true ∧ ((∃ x, s.memberCount key x ≠ 0) ∨ s.emergencyCount key ≠ 0) ∧
    (new.valid = false ∨ new.talkgroup ≠ (s.row key).talkgroup)

/-- A row is in use exactly if one of its counts is not 0. -/
theorem State.rowInUse_iff (hs : TablesCanonical s) (key : Nat) :
    s.rowInUse key = true ↔ (∃ x, s.memberCount key x ≠ 0) ∨ s.emergencyCount key ≠ 0 := by
  obtain ⟨-, -, -, -, hmembers, hinner, -⟩ := hs
  have hsorted : (s.memberRow key).sorted = true := (Tab.canonical_iff.mp (MembersCanonical.atD ⟨hmembers, hinner⟩ key)).1
  refine ⟨fun huse => ?_, fun hcount => ?_⟩
  · simp only [State.rowInUse, Bool.or_eq_true, List.any_eq_true, decide_eq_true_iff] at huse
    rcases huse with ⟨p, hp, hne⟩ | hemergency
    · refine .inl ⟨p.1, fun hzero => hne ?_⟩
      have hcount : s.memberCount key p.1 = p.2 := by
        change ((s.memberRow key).at? p.1).getD 0 = p.2
        rw [Tab.at?_of_mem hsorted hp]
        rfl
      rw [← hcount, hzero]
    · exact .inr hemergency
  · refine Bool.of_not_eq_false fun hfree => ?_
    obtain ⟨hmember, hemergency⟩ := State.counts_of_not_rowInUse hfree
    exact hcount.elim (fun ⟨x, hx⟩ => hx (hmember x)) fun hne => hne hemergency

theorem BadTalkgroup.iff_check (new : GroupRow) :
    (new.valid && (new.talkgroup == 0 || new.talkgroup == 0xFFFF)) = true ↔ BadTalkgroup new := by
  rw [Bool.and_eq_true, Bool.or_eq_true, beq_iff_eq, beq_iff_eq]
  rfl

theorem DuplicateRow.iff_check (s : State) (key : Nat) (new : GroupRow) :
    (new.valid && s.reach.rows.any fun p => p.1 != key && p.2.valid && p.2.talkgroup == new.talkgroup) = true ↔
      DuplicateRow s key new := by
  simp only [DuplicateRow, Bool.and_eq_true, List.any_eq_true, bne_iff_ne, beq_iff_eq, and_assoc]

theorem RowHeld.iff_check (hs : TablesCanonical s) (key : Nat) (new : GroupRow) :
    ((s.row key).valid && s.rowInUse key && (!new.valid || new.talkgroup != (s.row key).talkgroup)) = true ↔ RowHeld s key new := by
  rw [Bool.and_eq_true, Bool.and_eq_true, Bool.or_eq_true, State.rowInUse_iff hs, Bool.not_eq_true', bne_iff_ne, and_assoc]
  rfl

theorem State.groupCheck_of_bad {key : Nat} {new : GroupRow} (h : BadTalkgroup new ∨ DuplicateRow s key new) :
    s.groupCheck key new = some .badValue := by
  unfold State.groupCheck
  split
  · rfl
  next hgood =>
    rw [BadTalkgroup.iff_check] at hgood
    exact if_pos ((DuplicateRow.iff_check s key new).mpr (h.resolve_left hgood))

theorem State.groupCheck_of_good {key : Nat} {new : GroupRow} (hs : TablesCanonical s) (hbad : ¬BadTalkgroup new)
    (hduplicate : ¬DuplicateRow s key new) :
    (RowHeld s key new → s.groupCheck key new = some .inUse) ∧ (¬RowHeld s key new → s.groupCheck key new = none) := by
  have hcheck : s.groupCheck key new =
      if (s.row key).valid && s.rowInUse key && (!new.valid || new.talkgroup != (s.row key).talkgroup) then some .inUse else none := by
    unfold State.groupCheck
    rw [if_neg ((not_congr (BadTalkgroup.iff_check new)).mpr hbad), if_neg ((not_congr (DuplicateRow.iff_check s key new)).mpr hduplicate)]
  rw [hcheck]
  exact ⟨fun hheld => if_pos ((RowHeld.iff_check hs key new).mpr hheld), fun hfree => if_neg ((not_congr (RowHeld.iff_check hs key new)).mpr hfree)⟩

/-- Five bytes as a set of sites, the last byte highest. -/
theorem siteSetOf_eq (b0 b1 b2 b3 b4 : Byte) : siteSetOf b0 b1 b2 b3 b4 = b4 ++ b3 ++ b2 ++ b1 ++ b0 := by
  refine BitVec.eq_of_toNat_eq ?_
  have happend : ∀ (n : Nat) (v : BitVec n) (b : Byte), (v ++ b).toNat = v.toNat * 256 + b.toNat := fun n v b => by
    rw [BitVec.toNat_append, ← Nat.shiftLeft_add_eq_or_of_lt b.isLt, Nat.shiftLeft_eq]
  have h4 := b4.isLt
  have h3 := b3.isLt
  have h2 := b2.isLt
  have h1 := b1.isLt
  have h0 := b0.isLt
  rw [siteSetOf, happend, happend, happend, happend, BitVec.toNat_ofNat]
  simp only [numberOf, List.foldl_cons, List.foldl_nil]
  omega

theorem parseGroupFields_eq (g1 g0 b0 b1 b2 b3 b4 fl : Byte) :
    parseGroupFields [g1, g0, b0, b1, b2, b3, b4, fl] =
      some
        { talkgroup := BitVec.ofNat 16 (g1.toNat * 256 + g0.toNat), pinned := b4 ++ b3 ++ b2 ++ b1 ++ b0
          flood := fl.getLsbD 0, valid := fl.getLsbD 1 } := by
  simp only [parseGroupFields, siteSetOf_eq, word16, numberOf_two]

/-- A GROUP write that passes its checks: the row, and its counts if its talkgroup is new (R109, R110). -/
theorem State.writeGroupRecord_of_passed {key : Nat} {fields : List Byte} {new : GroupRow} (hparse : parseGroupFields fields = some new)
    (hkey : key ≤ 255) (hcheck : s.groupCheck key new = none) :
    s.writeGroupRecord key fields =
      if new.valid = true ∧ ((s.row key).valid = false ∨ new.talkgroup ≠ (s.row key).talkgroup) then
        ((s.putRow key new).recount key new.talkgroup, .ok)
      else (s.putRow key new, .ok) := by
  have hnot : ¬Config.groupRows ≤ key := Nat.not_le.mpr (Nat.lt_succ_of_le hkey)
  simp only [State.writeGroupRecord, hparse, if_neg hnot, hcheck]
  refine ite_congr (propext ?_) (fun _ => rfl) fun _ => rfl
  rw [Bool.and_eq_true, Bool.or_eq_true, Bool.not_eq_true', bne_iff_ne]

theorem State.writeGroupRecord_of_refused {key : Nat} {fields : List Byte} {new : GroupRow} {res : Result}
    (hparse : parseGroupFields fields = some new) (hkey : key ≤ 255) (hcheck : s.groupCheck key new = some res) :
    s.writeGroupRecord key fields = (s, res) := by
  have hnot : ¬Config.groupRows ≤ key := Nat.not_le.mpr (Nat.lt_succ_of_le hkey)
  simp only [State.writeGroupRecord, hparse, if_neg hnot, hcheck]

/-- Settles O46. -/
theorem groupRowWritten : Obligations.GroupRowWritten := by
  intro s r rest k1 k0 g1 g0 b0 b1 b2 b3 b4 fl hfront hheld hkind hbody key new old t badId duplicate inUse
  have hparse := parseGroupFields_eq g1 g0 b0 b1 b2 b3 b4 fl
  have hexec : exec .writeGroup s =
      .next (answeredWith r (t.writeGroupRecord key [g1, g0, b0, b1, b2, b3, b4, fl]).2 []
        (t.writeGroupRecord key [g1, g0, b0, b1, b2, b3, b4, fl]).1) :=
    congrArg Host.Outcome.next (State.complete_write hfront hheld hkind hbody rfl)
  rw [hexec]
  refine ⟨fun hkey => ?_, fun hkey hbad => ?_, fun hkey hbad hduplicate huse hs => ?_, fun hkey hbad hduplicate hfree hs he => ?_⟩
  · have hpast : Config.groupRows ≤ key := hkey
    simp only [State.writeGroupRecord, hparse, if_pos hpast]
  · rw [State.writeGroupRecord_of_refused hparse hkey (State.groupCheck_of_bad (s := t) hbad)]
  · rw [State.writeGroupRecord_of_refused hparse hkey ((State.groupCheck_of_good (s := t) hs hbad hduplicate).1 huse)]
  · have hwritten := State.writeGroupRecord_of_passed hparse hkey ((State.groupCheck_of_good (s := t) hs hbad hduplicate).2 hfree)
    by_cases hrecount : new.valid = true ∧ (old.valid = false ∨ new.talkgroup ≠ old.talkgroup)
    · let v := (t.putRow key new).recount key new.talkgroup
      refine ⟨v.loc.members, v.loc.emergencies, ?_, fun _ => ⟨fun x hx _ => ?_, ?_, fun k hk => ⟨?_, ?_⟩⟩, fun hkept => ?_⟩
      · rw [hwritten.trans (if_pos hrecount)]
        rfl
      · have hcount : (v.loc.members.atD key []).atD x 0 = v.memberCount key x := rfl
        rw [hcount, State.recount_memberCount, if_pos rfl]
        exact (members_eq_total he new.talkgroup hx).symm
      · have hcount : v.loc.emergencies.atD key 0 = v.emergencyCount key := rfl
        rw [hcount, State.recount_emergencyCount, if_pos rfl]
        exact (emergencies_eq_total s.loc.entries new.talkgroup).symm
      · exact Tab.atD_put_ne hk ..
      · exact Tab.atD_put_ne hk ..
      · rcases hkept with hinvalid | ⟨hvalid, hsame⟩
        · rw [hrecount.1] at hinvalid
          cases hinvalid
        · rcases hrecount.2 with hold | hnew
          · rw [hvalid] at hold
            cases hold
          · exact absurd hsame hnew
    · refine ⟨s.loc.members, s.loc.emergencies, ?_, fun hnew => absurd hnew hrecount, fun _ => ⟨rfl, rfl⟩⟩
      rw [hwritten.trans (if_neg hrecount)]
      rfl

end Sys2Proof.Machine

/-! BATCH and CONTROL requests (R146, R147, R148, R116). -/

namespace Sys2Proof.Machine

variable {s t u : State} {r : Request} {rest : List Request}

/-! ### BATCH -/

theorem byte_toNat_of_lt {n : Nat} (h : n < 256) : (byte n).toNat = n := (byte_toNat n).trans (Nat.mod_eq_of_lt h)

/-- Items laid out one behind the other, each behind its length, are read back (table 9-7). -/
theorem batchItemsOf_layout {items : List (List Byte)} (hlen : ∀ i ∈ items, i.length < 256) {n : Nat}
    (hn : (items.flatMap fun i => byte i.length :: i).length ≤ n) :
    batchItemsOf n (items.flatMap fun i => byte i.length :: i) = some items := by
  induction items generalizing n with
  | nil => cases n <;> rfl
  | cons i items ih =>
    have hcons : ((i :: items).flatMap fun i => byte i.length :: i) =
        byte i.length :: (i ++ items.flatMap fun i => byte i.length :: i) := rfl
    have hi : (byte i.length).toNat = i.length := byte_toNat_of_lt (hlen i List.mem_cons_self)
    rw [hcons] at hn ⊢
    rw [List.length_cons, List.length_append] at hn
    match n with
    | n + 1 =>
      have hnot : ¬(i ++ items.flatMap fun i => byte i.length :: i).length < i.length := by rw [List.length_append]; omega
      have hrest := ih (n := n) (fun j hj => hlen j (List.mem_cons_of_mem i hj)) (by omega)
      rw [batchItemsOf, hi, if_neg hnot, List.drop_left, List.take_left, hrest]
      rfl

theorem Request.items_of_layout {items : List (List Byte)} (hpos : 1 ≤ items.length) (hle : items.length ≤ 16)
    (hlen : ∀ i ∈ items, i.length < 256) (tag : BitVec 16) :
    ({ tag := tag, kind := .batch, body := byte items.length :: items.flatMap fun i => byte i.length :: i } : Request).items =
      some items := by
  have hn : (byte items.length).toNat = items.length := byte_toNat_of_lt (Nat.lt_of_le_of_lt hle (by decide))
  simp only [Request.items, batchItemsOf_layout hlen (Nat.le_refl _), hn]
  exact if_pos ⟨trivial, hpos, hle⟩

theorem exec_batch_of_front {items : List (List Byte)} (hfront : Front s r rest) (hheld : Unheld s) (hkind : r.kind = .batch)
    (hitems : r.items = some items) :
    exec .batch s =
      .next { taken s rest with mgmt.batch := some { tag := r.tag, items := items.length, applied := 0, rest := items } } := by
  have hlength : r.lengthOk = true := by simp only [Request.lengthOk, hkind, hitems]; rfl
  have hcode : r.codeOk = true := by rw [Request.codeOk, hkind]
  have hcomplete := State.complete_of_passed (isFor := Request.isKind .batch) (effect := State.startBatch) hfront
    (decide_eq_true hkind) (State.precheck_of_unheld (s := taken s rest) hlength hcode hheld)
  refine congrArg Host.Outcome.next (hcomplete.trans ?_)
  simp only [State.startBatch, hitems]

theorem exec_batchItem_of_item {b : Batch} {item : List Byte} {items : List (List Byte)} {res : Result} (hbatch : s.mgmt.batch = some b)
    (hrest : b.rest = item :: items) (happly : s.applyItem item = (t, res)) :
    exec .batchItem s =
      .next
        (if res = .ok ∧ items ≠ [] then { t with mgmt.batch := some { b with applied := b.applied + 1, rest := items } }
          else
            ({ t with mgmt.batch := none } : State).offerCore
              (.response { tag := b.tag, result := res, body := [byte (if res = .ok then b.applied + 1 else b.applied)] })) := by
  change execBatchItem s = _
  simp only [execBatchItem, hbatch, hrest, happly]
  cases res with
  | ok => by_cases hlast : items = [] <;> simp only [hlast, if_true, if_false, ne_eq, not_true, not_false_iff, and_true, and_false] <;> rfl
  | badTable | badKey | badValue | locked | batchActive | notFound | inUse | wrongState | noRoom => rfl

theorem writeLength_eq_none {n : Nat} (h : n = 0 ∨ 5 < n) : writeLength n = none := by
  rw [← Option.not_isSome_iff_eq_none, writeLength_isSome]
  omega

/-- An item of the right length is its table's WRITE (R146). -/
theorem State.applyItem_of_length {code k1 k0 : Byte} {fields : List Byte} (hlength : writeLength code.toNat = some fields.length)
    (s : State) :
    s.applyItem (code :: k1 :: k0 :: fields) = s.writeRecord code.toNat (k1.toNat * 256 + k0.toNat) fields := by
  simp only [State.applyItem, hlength, if_true, numberOf_two]

/-- The record that each table code names. -/
theorem State.writeRecord_eq {code : Byte} (h : (writeLength code.toNat).isSome = true) (key : Nat) (fields : List Byte) (s : State) :
    s.writeRecord code.toNat key fields =
      if code = 1 then s.writeSiteRecord key fields
      else if code = 2 then s.writeClassRecord key fields
      else if code = 3 then s.writeRangeRecord key fields
      else if code = 4 then s.writeGroupRecord key fields
      else s.writeTimingRecord key fields := by
  have hcode : ∀ n : Byte, code = n ↔ code.toNat = n.toNat := fun n => BitVec.toNat_inj.symm
  simp only [hcode]
  generalize code.toNat = n at h
  obtain ⟨hpos, hle⟩ := (writeLength_isSome n).mp h
  match n with
  | 1 | 2 | 3 | 4 | 5 => rfl

/-- Settles O47. -/
theorem batchItemsApplied : Obligations.BatchItemsApplied := by
  refine ⟨fun s r rest items hfront hheld hkind hitems => exec_batch_of_front hfront hheld hkind hitems,
    fun items hpos hle hlen tag => Request.items_of_layout hpos hle hlen tag,
    fun s t b item rest res hbatch hrest happly => exec_batchItem_of_item hbatch hrest happly,
    fun s code k1 k0 fields => ⟨fun hcode => ?_, fun n hlength hne => ?_, fun n hlength heq => ?_⟩, fun s hbatch => ?_⟩
  · simp only [State.applyItem, writeLength_eq_none hcode]
  · simp only [State.applyItem, hlength, if_neg hne]
  · rw [← heq] at hlength
    rw [State.applyItem_of_length hlength, State.writeRecord_eq (by rw [hlength]; rfl)]
  · change execBatchItem s = _
    rw [execBatchItem, hbatch]

/-! ### CONTROL -/

/-- A CONTROL request that a batch and LOCK do not hold off is answered OK. -/
theorem State.complete_control {f : State → State} {code : Byte} (hfront : Front s r rest) (hbatch : s.mgmt.batch = none)
    (hlock : code.toNat = 1 ∨ code.toNat = 2 → s.mgmt.lock = false) (hkind : r.kind = .control) (hbody : r.body = [code])
    (hdefined : controlLength code.toNat = some 1) :
    s.complete (Request.isRow .control code.toNat) (controlling f) = answeredWith r .ok [] (f (taken s rest)) := by
  have hcode : r.code = some code.toNat := by rw [Request.code, hbody]; rfl
  have hfor : Request.isRow .control code.toNat r = true := by simp [Request.isRow, Request.isFor, hkind, hcode]
  have hlengthOk : r.lengthOk = true := by simp [Request.lengthOk, hkind, hcode, codeLength, hdefined, hbody]
  have hcodeOk : r.codeOk = true := by simp [Request.codeOk, hkind, hcode, codeLength, hdefined]
  have hfree : ((taken s rest).mgmt.lock && r.heldByLock) = false := by
    have hheld : r.heldByLock = (code.toNat == 1 || code.toNat == 2) := by simp [Request.heldByLock, hkind, hcode]
    rw [hheld, Bool.and_eq_false_iff, Bool.or_eq_false_iff, beq_eq_false_iff_ne, beq_eq_false_iff_ne]
    by_cases hrun : code.toNat = 1 ∨ code.toNat = 2
    · exact .inl (hlock hrun)
    · exact .inr (not_or.mp hrun)
  have hcheck : (taken s rest).precheck r = none := by
    rw [State.precheck_of_ok hlengthOk hcodeOk, batchHolds_eq_false (s := taken s rest) (.inl hbatch), hfree]
    rfl
  rw [State.complete_of_passed hfront hfor hcheck]
  rfl

theorem State.startRun_of_load (h : s.mgmt.run = .load) :
    s.startRun = { s with mgmt.run := .run, loc.boundary := some (s.now + s.loc.timing.epochLength) } :=
  if_neg (by rw [h]; decide)

/-- The slots that STOP tells (R64). -/
def toldSlots (s : State) : List Nat := s.movingSlots.filter fun k => !s.loc.stopReports.contains k

theorem State.stopRun_of_run (h : s.mgmt.run = .run) :
    s.stopRun =
      { s with
        mgmt.run := .load
        loc.boundary := none
        loc.visits := []
        loc.stopReports := s.loc.stopReports ++ toldSlots s
        vote.stopReport := true } :=
  if_neg (by rw [h]; decide)

theorem mem_movingSlots {k : Nat} : k ∈ s.movingSlots ↔ ∃ e, (k, e) ∈ s.loc.entries ∧ e.state = .moving := by
  simp [State.movingSlots]

theorem toldSlots_sublist (s : State) : (toldSlots s).Sublist (s.loc.entries.map (·.1)) :=
  List.filter_sublist.trans (List.filter_sublist.map _)

/-- Every MOVING entry is told, now or by an earlier report. -/
theorem mem_stopReports_append_toldSlots {k : Nat} (h : k ∈ s.movingSlots) : k ∈ s.loc.stopReports ++ toldSlots s := by
  by_cases hwaiting : k ∈ s.loc.stopReports
  · exact List.mem_append_left _ hwaiting
  · exact List.mem_append_right _ (List.mem_filter.mpr ⟨h, by simpa using hwaiting⟩)

/-- Settles O48. -/
theorem controlActions : Obligations.ControlActions := by
  intro s r rest hfront hbatch hkind ok t
  have hexec : ∀ {c : Instr} {f : State → State} {code : Byte}, r.body = [code] → controlLength code.toNat = some 1 →
      (code.toNat = 1 ∨ code.toNat = 2 → s.mgmt.lock = false) →
      exec c s = .next (s.complete (Request.isRow .control code.toNat) (controlling f)) → exec c s = ok (f t) :=
    fun hbody hdefined hlock hc => hc.trans (congrArg _ (State.complete_control hfront hbatch hlock hkind hbody hdefined))
  refine ⟨fun hbody hlock => ?_, fun hbody hlock => ?_, fun hbody => ?_, fun hbody => ?_, fun hbody => ?_⟩
  · have hstart : exec .start s = ok t.startRun := hexec hbody rfl (fun _ => hlock) rfl
    exact ⟨fun hrun => hstart.trans (congrArg ok (State.startRun_of_load hrun)), fun hrun => hstart.trans (congrArg ok (if_pos hrun))⟩
  · have hstop : exec .stop s = ok t.stopRun := hexec hbody rfl (fun _ => hlock) rfl
    refine ⟨fun hrun => ⟨toldSlots s, hstop.trans (congrArg ok (State.stopRun_of_run hrun)), toldSlots_sublist s, fun k hk => ?_,
      fun k e hk hs => ?_⟩, fun hrun => hstop.trans (congrArg ok (if_pos hrun))⟩
    · exact mem_movingSlots.mp ((List.mem_filter.mp hk).1)
    · exact mem_stopReports_append_toldSlots (mem_movingSlots.mpr ⟨e, Tab.mem_of_at? hk, hs⟩)
  · exact hexec (c := .lock) (f := fun t => { t with mgmt.lock := true }) hbody rfl (fun h => absurd h (by decide)) rfl
  · exact hexec (c := .floodOn) (f := State.setFlood true) hbody rfl (fun h => absurd h (by decide)) rfl
  · exact hexec (c := .floodOff) (f := State.setFlood false) hbody rfl (fun h => absurd h (by decide)) rfl

end Sys2Proof.Machine

/-! RADIO_ACTION requests (R12, R13, R51, R149). -/

namespace Sys2Proof.Machine

variable {s t u : State} {r : Request} {rest : List Request} {k x : Nat} {e : Entry}

/-! ### A RADIO_ACTION that passes its checks -/

theorem State.reportConditions_eq (s t : State) : State.reportConditions s t = withConditions s t := State.locEvent_eq (fun _ => t) s

/-- A RADIO_ACTION that no batch holds off, completed by the row of its action. -/
theorem State.complete_action {f : RadioId → Nat → State → State × Result} {code r2 r1 r0 x : Byte} (hfront : Front s r rest)
    (hbatch : s.mgmt.batch = none) (hkind : r.kind = .radioAction) (hbody : r.body = [code, r2, r1, r0, x])
    (hdefined : actionLength code.toNat = some 5) :
    s.complete (Request.isRow .radioAction code.toNat) (changing parseAction (acting f)) =
      answeredWith r (f (BitVec.ofNat 24 (number24 r2 r1 r0)) x.toNat (taken s rest)).2 []
        (withConditions (taken s rest) (f (BitVec.ofNat 24 (number24 r2 r1 r0)) x.toNat (taken s rest)).1) := by
  have hcode : r.code = some code.toNat := by rw [Request.code, hbody]; rfl
  have hfor : Request.isRow .radioAction code.toNat r = true := by simp [Request.isRow, Request.isFor, hkind, hcode]
  have hlengthOk : r.lengthOk = true := by simp [Request.lengthOk, hkind, hcode, codeLength, hdefined, hbody]
  have hcodeOk : r.codeOk = true := by simp [Request.codeOk, hkind, hcode, codeLength, hdefined]
  have hheld : r.heldByLock = false := by rw [Request.heldByLock, hkind]
  have hcheck : (taken s rest).precheck r = none := by
    rw [State.precheck_of_ok hlengthOk hcodeOk, batchHolds_eq_false (s := taken s rest) (.inl hbatch), hheld, Bool.and_false]
    rfl
  rw [State.complete_of_passed hfront hfor hcheck]
  simp only [changing, hbody, parseAction, acting, word24_eq, State.reportConditions_eq]

/-- The same, with what the action does given. -/
theorem exec_of_action {c : Instr} {f : RadioId → Nat → State → State × Result} {code r2 r1 r0 x : Byte} {res : Result}
    (hc : exec c s = .next (s.complete (Request.isRow .radioAction code.toNat) (changing parseAction (acting f))))
    (hfront : Front s r rest) (hbatch : s.mgmt.batch = none) (hkind : r.kind = .radioAction) (hbody : r.body = [code, r2, r1, r0, x])
    (hdefined : actionLength code.toNat = some 5) (hf : f (BitVec.ofNat 24 (number24 r2 r1 r0)) x.toNat (taken s rest) = (u, res)) :
    exec c s = .next (answeredWith r res [] (withConditions (taken s rest) u)) := by
  rw [hc, State.complete_action hfront hbatch hkind hbody hdefined, hf]

/-! ### FORCE_ROAM, check by check -/

theorem validRadio_eq_false_iff (w : RadioId) : validRadio w = false ↔ w = 0 ∨ w = 0xFFFFFF := by
  rw [← Bool.not_eq_true, validRadio_iff, Classical.not_and_iff_not_or_not, Classical.not_not, Classical.not_not]

theorem State.forceRoam_of_invalid {w : RadioId} (h : w = 0 ∨ w = 0xFFFFFF) (x : Nat) (s : State) : s.forceRoam w x = (s, .badKey) := by
  rw [State.forceRoam, (validRadio_eq_false_iff w).mpr h]
  rfl

theorem validRadio_of_ne {w : RadioId} (h0 : w ≠ 0) (h1 : w ≠ 0xFFFFFF) : validRadio w = true := (validRadio_iff w).mpr ⟨h0, h1⟩

theorem State.forceRoam_of_unknown {w : RadioId} (hw : validRadio w = true) (hl : s.lookup w = none) (x : Nat) :
    s.forceRoam w x = (s, .notFound) := by
  simp only [State.forceRoam, hw, hl]
  rfl

/-- The checks of FORCE_ROAM at an entry, in order (R51). -/
theorem State.forceRoam_of_entry {w : RadioId} (hw : validRadio w = true) (hl : s.lookup w = some (k, e)) (x : Nat) :
    s.forceRoam w x =
      if s.mgmt.run = .load then (s, .wrongState)
      else if e.state ≠ .attached ∧ e.state ≠ .shadow then (s, .wrongState)
      else if !validSite x || x == e.serving || !s.siteUp x then (s, .badValue)
      else
        match s.startHandover k e x .forced with
        | (s1, false) => (s1, .noRoom)
        | (s1, true) =>
          (s1.modifyEntry k fun e' =>
            if (candOf x e'.cands).isSome then e'
            else
              { e' with
                cands := addCand (s.policy e) s.loc.epoch e.uses true
                  { site := x, score := 0, scoreEpoch := s.loc.epoch, heardEpoch := s.loc.epoch } e'.cands }, .ok) := by
  simp only [State.forceRoam, hw, hl]
  rfl

theorem State.forceRoam_of_wrongState {w : RadioId} (hw : validRadio w = true) (hl : s.lookup w = some (k, e)) (x : Nat)
    (h : s.mgmt.run = .load ∨ e.state = .unattached ∨ e.state = .moving) : s.forceRoam w x = (s, .wrongState) := by
  rw [State.forceRoam_of_entry hw hl]
  rcases h with h | h | h
  · exact if_pos h
  · rw [h]; exact (ite_eq_left_iff.mpr fun _ => if_pos (by decide))
  · rw [h]; exact (ite_eq_left_iff.mpr fun _ => if_pos (by decide))

/-- The target check of FORCE_ROAM. -/
theorem forceTarget_iff (s : State) (e : Entry) (x : Nat) :
    (!validSite x || x == e.serving || !s.siteUp x) = true ↔
      x = 0 ∨ 40 < x ∨ x = e.serving ∨ (s.site x).state ≠ .up := by
  rw [Bool.or_eq_true, Bool.or_eq_true, Bool.not_eq_true', Bool.not_eq_true', beq_iff_eq, ← Bool.not_eq_true, ← Bool.not_eq_true,
    validSite_iff, State.siteUp_iff, Classical.not_and_iff_not_or_not, or_assoc, or_assoc, Nat.not_le, Nat.not_le, Nat.lt_one_iff]

/-- FORCE_ROAM of an entry in service, in RUN (R51). -/
theorem State.forceRoam_of_settled {w : RadioId} (hw : validRadio w = true) (hl : s.lookup w = some (k, e)) (x : Nat)
    (hrun : s.mgmt.run = .run) (hs : e.state = .attached ∨ e.state = .shadow) :
    (x = 0 ∨ 40 < x ∨ x = e.serving ∨ (s.site x).state ≠ .up → s.forceRoam w x = (s, .badValue)) ∧
    (¬(x = 0 ∨ 40 < x ∨ x = e.serving ∨ (s.site x).state ≠ .up) →
      (¬LaneTakes s x → s.forceRoam w x = (refusedAtLane x s, .noRoom)) ∧
      (LaneTakes s x → s.forceRoam w x = (handoverStarted k e x .forced (forcedCands s e x) s, .ok))) := by
  have hrunning : ¬s.mgmt.run = .load := by rw [hrun]; decide
  have hsettled : ¬(e.state ≠ .attached ∧ e.state ≠ .shadow) := fun h => hs.elim h.1 h.2
  rw [State.forceRoam_of_entry hw hl, if_neg hrunning, if_neg hsettled]
  refine ⟨fun hbad => if_pos ((forceTarget_iff s e x).mpr hbad), fun hgood => ?_⟩
  rw [if_neg ((not_congr (forceTarget_iff s e x)).mpr hgood)]
  have hup : (s.site x).state = .up := by
    simp only [not_or, Decidable.not_not] at hgood
    exact hgood.2.2.2
  refine ⟨fun hfull => ?_, fun htakes => ?_⟩
  · rw [State.startHandover_of_full hup hfull]
  · rw [State.startHandover_of_takes hup htakes]
    exact congrArg (·, Result.ok) (State.forceRoam_started k e x s _)

/-- The list of an entry forced to a site is the one R51 names. -/
theorem forcedCands_of_spec {cs : List Candidate}
    (h : if (candOf x e.cands).isSome then cs = e.cands
      else
        let new : Candidate := { site := x, score := 0, scoreEpoch := s.loc.epoch, heardEpoch := s.loc.epoch }
        if e.cands.length < 5 then cs = insertCand new e.cands
        else ∃ v, Victim s e v ∧ cs = insertCand new (dropCand v.site e.cands)) :
    forcedCands s e x = cs := by
  unfold forcedCands
  split at h
  next hheld => rw [if_pos hheld, h]
  next hnew =>
    rw [if_neg hnew, addCand]
    dsimp only at h
    split at h
    next hroom => rw [if_pos hroom, h]
    next hfull =>
      obtain ⟨v, hv, rfl⟩ := h
      rw [if_neg hfull, victim_of_spec hv]
      rfl

/-! ### EVICT and CLEAR_EMERGENCY -/

theorem State.evict_of_invalid {w : RadioId} (h : w = 0 ∨ w = 0xFFFFFF) (s : State) : s.evict w = (s, .badKey) := by
  rw [State.evict, (validRadio_eq_false_iff w).mpr h]
  rfl

theorem State.evict_of_unknown {w : RadioId} (hw : validRadio w = true) (hl : s.lookup w = none) : s.evict w = (s, .notFound) := by
  simp only [State.evict, hw, hl]
  rfl

theorem State.evict_of_entry {w : RadioId} (hw : validRadio w = true) (hl : s.lookup w = some (k, e)) :
    s.evict w =
      (((leaving e s).writeEntry k none).offerCore (noticeOf s .deregister e.radio e.serving 0 e.talkgroup .forced), .ok) := by
  have hepoch : ((leaving e s).writeEntry k none).loc.epoch = s.loc.epoch := by
    change (leaving e s).loc.epoch = s.loc.epoch
    rw [leaving_loc]
  simp only [State.evict, hw, hl, State.leaveSites_eq, State.notify, noticeOf, hepoch]
  rfl

theorem State.clearEmergency_of_entry {w : RadioId} (hl : s.lookup w = some (k, e)) :
    s.clearEmergency w = (if e.emergency then s.writeEntry k (some { e with emergency := false }) else s, .ok) := by
  simp only [State.clearEmergency, hl]

/-- A radio action that leaves the state as it was. -/
theorem withConditions_self (s : State) : withConditions s s = s := withConditions_of_entries_eq rfl

theorem handoverStarted_entries (k : Nat) (e : Entry) (x : Nat) (origin : Origin) (cs : List Candidate) (s : State) :
    (handoverStarted k e x origin cs s).loc.entries = s.loc.entries.insert k { movedTo e x origin with cands := cs } := by
  rw [handoverStarted, State.writeEntry_some_entries, State.issueDirective_loc, State.issueDirective_loc]
  rfl

/-- Settles O49. -/
theorem radioActions : Obligations.RadioActions := by
  intro s r rest r2 r1 r0 x hfront hbatch hkind radio answered t
  refine ⟨fun hbody => ?_, fun hbody => ?_, fun hbody => ?_⟩
  · have hexec : ∀ {res : Result} {u : State}, t.forceRoam radio x.toNat = (u, res) →
        exec .forceRoam s = answered res (withConditions t u) :=
      fun hf => exec_of_action (f := State.forceRoam) rfl hfront hbatch hkind hbody rfl hf
    have hkept : ∀ {res : Result}, t.forceRoam radio x.toNat = (t, res) → exec .forceRoam s = answered res t :=
      fun hf => (hexec hf).trans (congrArg _ (withConditions_self t))
    refine ⟨fun hinvalid => hkept (State.forceRoam_of_invalid hinvalid ..), fun h0 h1 => ?_⟩
    have hw : validRadio radio = true := validRadio_of_ne h0 h1
    refine ⟨fun hl => hkept (State.forceRoam_of_unknown (s := t) hw hl _), fun k e hholds => ?_⟩
    obtain ⟨hsorted, hl⟩ := hholds
    refine ⟨fun hwrong => hkept (State.forceRoam_of_wrongState (s := t) hw hl _ hwrong), fun hrun hs => ?_⟩
    obtain ⟨hbad, hgood⟩ := State.forceRoam_of_settled (s := t) hw hl x.toNat hrun hs
    refine ⟨fun htarget => hkept (hbad htarget), fun hpos hle hne hup => ?_⟩
    have htarget : ¬(x.toNat = 0 ∨ 40 < x.toNat ∨ x.toNat = e.serving ∨ (s.site x.toNat).state ≠ .up) := by
      rintro (h | h | h | h)
      · omega
      · omega
      · exact hne h
      · exact h hup
    obtain ⟨hfull, htakes⟩ := hgood htarget
    refine ⟨fun hlane => ?_, fun hlane cs hcs => ?_⟩
    · exact (hexec (hfull hlane)).trans (congrArg _ (withConditions_of_entries_eq rfl))
    · have hforced : forcedCands t e x.toNat = cs := forcedCands_of_spec hcs
      rw [hforced] at htakes
      exact (hexec (htakes hlane)).trans (congrArg _ (withConditions_of_entries_insert ⟨hsorted, State.entry_of_lookup hsorted hl⟩
        (handoverStarted_entries ..) rfl))
  · have hexec : ∀ {res : Result} {u : State}, t.evict radio = (u, res) → exec .evict s = answered res (withConditions t u) :=
      fun hf => exec_of_action (f := fun w _ t => t.evict w) rfl hfront hbatch hkind hbody rfl hf
    refine ⟨fun hinvalid => ?_, fun h0 h1 => ?_⟩
    · exact (hexec (State.evict_of_invalid hinvalid t)).trans (congrArg _ (withConditions_self t))
    · have hw : validRadio radio = true := validRadio_of_ne h0 h1
      refine ⟨fun hl => ?_, fun k e hholds => ?_⟩
      · exact (hexec (State.evict_of_unknown (s := t) hw hl)).trans (congrArg _ (withConditions_self t))
      · exact hexec (State.evict_of_entry (s := t) hw hholds.2)
  · have hexec : ∀ {res : Result} {u : State}, t.clearEmergency radio = (u, res) →
        exec .clearEmergency s = answered res (withConditions t u) :=
      fun hf => exec_of_action (f := fun w _ t => t.clearEmergency w) rfl hfront hbatch hkind hbody rfl hf
    refine ⟨fun hl => ?_, fun k e hholds => ?_⟩
    · have hunknown : t.clearEmergency radio = (t, .notFound) := by
        have hl' : t.lookup radio = none := hl
        simp only [State.clearEmergency, hl']
      exact (hexec hunknown).trans (congrArg _ (withConditions_self t))
    · exact hexec (State.clearEmergency_of_entry (s := t) hholds.2)

end Sys2Proof.Machine

/-! Alerts: reports taken (R154, R155) and acknowledgements (R156). -/

namespace Sys2Proof.Machine

variable {s t u : State} {r : Request} {rest : List Request}

/-! ### Class bits -/

theorem alertCode_lt (c : AlertClass) : alertCode c - 1 < 8 := by cases c <;> decide

/-- The bit of a class in a byte. -/
theorem hasClass_eq (b : BitVec 8) (c : AlertClass) : hasClass b c = b.getLsbD (alertCode c - 1) := by
  have hne : (BitVec.twoPow 8 (alertCode c - 1) != 0) = true := by cases c <;> decide
  have hbit : hasClass b c = (b &&& BitVec.twoPow 8 (alertCode c - 1) != 0) := rfl
  rw [hbit, BitVec.and_twoPow]
  cases b.getLsbD (alertCode c - 1) with
  | true => exact hne
  | false => rfl

theorem hasClass_and (a b : BitVec 8) (c : AlertClass) : hasClass (a &&& b) c = (hasClass a c && hasClass b c) := by
  simp only [hasClass_eq, BitVec.getLsbD_and]

theorem hasClass_or (a b : BitVec 8) (c : AlertClass) : hasClass (a ||| b) c = (hasClass a c || hasClass b c) := by
  simp only [hasClass_eq, BitVec.getLsbD_or]

theorem hasClass_not (b : BitVec 8) (c : AlertClass) : hasClass (~~~b) c = !hasClass b c := by
  simp only [hasClass_eq, BitVec.getLsbD_not, decide_eq_true (alertCode_lt c), Bool.true_and]

theorem hasClass_alertBit (c d : AlertClass) : hasClass (alertBit c) d = decide (d = c) := by
  cases c <;> cases d <;> decide

theorem hasClass_setClass (b : BitVec 8) (c : AlertClass) (v : Bool) (d : AlertClass) :
    hasClass (setClass b c v) d = if d = c then v else hasClass b d := by
  unfold setClass
  cases v <;> by_cases h : d = c <;> simp [hasClass_or, hasClass_and, hasClass_not, hasClass_alertBit, h]

/-! ### The ALERT frames of a rise -/

theorem alertsOffered_eq_foldl (before : BitVec 8) (s : State) :
    alertsOffered before s = alertClasses.foldl
      (fun t c =>
        if hasClass s.mgmt.flags c = true ∧ hasClass before c = false then
          t.offerCore (.alert { cls := c, flags := s.mgmt.flags, stalls := s.stallSet, epoch := s.loc.epoch })
        else t) s := rfl

/-- The model's frames of a rise are those of R155. -/
theorem State.raiseFrom_eq (before : BitVec 8) (s : State) : s.raiseFrom before = alertsOffered before s := by
  have hrises : ∀ c, hasClass (s.mgmt.flags &&& ~~~before) c = true ↔ hasClass s.mgmt.flags c = true ∧ hasClass before c = false := by
    intro c
    rw [hasClass_and, hasClass_not, Bool.and_eq_true, Bool.not_eq_true']
  simp only [State.raiseFrom, hrises]
  rfl

/-- A fold that acts at one member of its list only. -/
theorem foldl_ite_of_unique {α β : Type} {P : α → Prop} [DecidablePred P] (f : α → β → β) {c : α} {l : List α} (hl : l.Nodup)
    (hc : c ∈ l) (hP : ∀ d ∈ l, d ≠ c → ¬P d) (b : β) :
    l.foldl (fun b d => if P d then f d b else b) b = if P c then f c b else b := by
  have hsame : ∀ (l : List α) (b : β), (∀ d ∈ l, ¬P d) → l.foldl (fun b d => if P d then f d b else b) b = b := by
    intro l
    induction l with
    | nil => exact fun _ _ => rfl
    | cons d l ih =>
      intro b hnone
      rw [List.foldl_cons, if_neg (hnone d List.mem_cons_self)]
      exact ih b fun d hd => hnone d (List.mem_cons_of_mem _ hd)
  induction l generalizing b with
  | nil => cases hc
  | cons d l ih =>
    obtain ⟨hnot, hnodup⟩ := List.nodup_cons.mp hl
    rw [List.foldl_cons]
    by_cases hd : d = c
    · subst hd
      refine hsame l _ fun e he => hP e (List.mem_cons_of_mem _ he) fun hed => hnot (hed ▸ he)
    · rw [if_neg (hP d List.mem_cons_self hd)]
      exact ih hnodup ((List.mem_cons.mp hc).resolve_left (Ne.symm hd)) (fun e he => hP e (List.mem_cons_of_mem _ he)) b

theorem mem_alertClasses (c : AlertClass) : c ∈ alertClasses := by cases c <;> decide

/-- Where only one class can have risen, at most its ALERT is offered. -/
theorem alertsOffered_of_one {before : BitVec 8} {c : AlertClass} (h : ∀ d, d ≠ c → hasClass s.mgmt.flags d = hasClass before d) :
    alertsOffered before s =
      if hasClass s.mgmt.flags c = true ∧ hasClass before c = false then
        s.offerCore (.alert { cls := c, flags := s.mgmt.flags, stalls := s.stallSet, epoch := s.loc.epoch })
      else s := by
  rw [alertsOffered_eq_foldl]
  refine foldl_ite_of_unique (P := fun c => hasClass s.mgmt.flags c = true ∧ hasClass before c = false)
    (fun c t => t.offerCore (.alert { cls := c, flags := s.mgmt.flags, stalls := s.stallSet, epoch := s.loc.epoch }))
    (by decide) (mem_alertClasses c) (fun d _ hd hrisen => ?_) s
  rw [h d hd, hrisen.2] at hrisen
  cases hrisen.1

/-! ### Reports -/

/-- The flags after a report, written out (R154). -/
theorem flagsAfterReport_eq (flags enables : BitVec 8) (anyStall : Bool) (c : AlertClass) (v : Bool) :
    flagsAfterReport flags enables anyStall { cls := c, value := v } =
      if (if c = .siteStall then anyStall && hasClass enables c else v && hasClass enables c) then flags ||| alertBit c
      else if c = .siteStall then flags &&& ~~~alertBit c
      else flags := by
  cases c <;> rfl

theorem hasClass_ite_or (b : Bool) (f : BitVec 8) (c d : AlertClass) :
    hasClass (if b then f ||| alertBit c else f) d = if d = c then b || hasClass f c else hasClass f d := by
  cases b <;> by_cases hd : d = c <;> simp [hasClass_or, hasClass_alertBit, hd]

/-- Only the class reported can have changed. -/
theorem hasClass_flagsAfterReport (flags enables : BitVec 8) (anyStall : Bool) (c : AlertClass) (v : Bool) (d : AlertClass) :
    hasClass (flagsAfterReport flags enables anyStall { cls := c, value := v }) d =
      if d = c then
        if c = .siteStall then anyStall && hasClass enables c else (v && hasClass enables c) || hasClass flags c
      else hasClass flags d := by
  by_cases hstall : c = .siteStall
  · subst hstall
    exact hasClass_setClass ..
  · have hkept : flagsAfterReport flags enables anyStall { cls := c, value := v } =
        if v && hasClass enables c then flags ||| alertBit c else flags := by
      rw [flagsAfterReport_eq, if_neg hstall, if_neg hstall]
    rw [hkept, if_neg hstall, hasClass_ite_or]

theorem exec_alertReport_of_found {c : AlertClass} {a : AlertReport}
    (h : (s.mgmt.alertReports.find? fun r => decide (r.cls = c)) = some a) :
    exec (.alertReport c) s = .next (({ s with mgmt.alertReports := s.mgmt.alertReports.erase a } : State).takeAlertReport a) := by
  change execAlertReport c s = _
  rw [execAlertReport, h]

/-- Settles O51. -/
theorem alertReportTaken : Obligations.AlertReportTaken := by
  refine ⟨fun s c v hfound => ?_, fun s c hnone => ?_⟩
  · intro sets t
    have hflags : flagsAfterReport s.mgmt.flags s.mgmt.enables s.anyStall { cls := c, value := v } = t.mgmt.flags :=
      flagsAfterReport_eq ..
    have hstate : ({ s with mgmt.alertReports := s.mgmt.alertReports.erase { cls := c, value := v } } : State).takeAlertReport
        { cls := c, value := v } = t.raiseFrom s.mgmt.flags := by
      unfold State.takeAlertReport
      rw [flagsAfterReport_eq]
      rfl
    have hclass : ∀ d, hasClass t.mgmt.flags d =
        if d = c then if c = .siteStall then s.anyStall && hasClass s.mgmt.enables c else (v && hasClass s.mgmt.enables c) || hasClass s.mgmt.flags c
        else hasClass s.mgmt.flags d := fun d => by rw [← hflags, hasClass_flagsAfterReport]
    rw [exec_alertReport_of_found hfound, hstate, State.raiseFrom_eq,
      alertsOffered_of_one (c := c) fun d hd => (hclass d).trans (if_neg hd)]
    refine congrArg Host.Outcome.next (ite_congr (propext ?_) (fun _ => rfl) fun _ => rfl)
    have hrisen : (sets && !hasClass s.mgmt.flags c) = true ↔ sets = true ∧ hasClass s.mgmt.flags c = false := by
      rw [Bool.and_eq_true, Bool.not_eq_true']
    rw [hclass c, if_pos rfl, hrisen]
    refine and_congr_left fun hclear => ?_
    by_cases hstall : c = .siteStall
    · have hsets : sets = (s.anyStall && hasClass s.mgmt.enables c) := if_pos hstall
      rw [if_pos hstall, hsets]
    · have hsets : sets = (v && hasClass s.mgmt.enables c) := if_neg hstall
      rw [if_neg hstall, hsets, hclear, Bool.or_false]
  · have hfind : (s.mgmt.alertReports.find? fun r => decide (r.cls = c)) = none :=
      List.find?_eq_none.mpr fun r hr => by simpa using hnone r hr
    change execAlertReport c s = _
    rw [execAlertReport, hfind]

/-! ### Acknowledgements -/

/-- The stall flag of a site's record after an acknowledgement that names the site (R156 step 1). -/
def SiteRecord.stallAcked (r : SiteRecord) (named : Bool) : SiteRecord :=
  { r with stall := if named ∧ r.state ≠ .stalled then false else r.stall }

theorem SiteRecord.stallAcked_false (r : SiteRecord) : r.stallAcked false = r := by simp [SiteRecord.stallAcked]

theorem SiteRecord.stallAcked_of_stalled {r : SiteRecord} (h : r.state = .stalled) (named : Bool) : r.stallAcked named = r := by
  rw [SiteRecord.stallAcked, if_neg fun hnot => hnot.2 h]

theorem SiteRecord.stallAcked_stallAcked (r : SiteRecord) (a b : Bool) : (r.stallAcked a).stallAcked b = r.stallAcked (a || b) := by
  cases a with
  | false => rw [SiteRecord.stallAcked_false, Bool.false_or]
  | true => cases b <;> simp [SiteRecord.stallAcked]

theorem State.site_ackStall (x y : Nat) (s : State) : (s.ackStall x).site y = (s.site y).stallAcked (decide (y = x)) := by
  unfold State.ackStall
  dsimp only
  by_cases hy : y = x
  · subst hy
    split
    next hs => exact (SiteRecord.stallAcked_of_stalled hs _).symm
    next hs => simp [State.site_putSite, SiteRecord.stallAcked, hs]
  · rw [decide_eq_false hy, SiteRecord.stallAcked_false]
    split
    · rfl
    · rw [State.site_putSite, if_neg hy]

/-- The first `n` sites acknowledged. -/
def ackFirst (mask : SiteSet) (n : Nat) (s : State) : State :=
  (List.range n).foldl (fun t i => if inSet mask (i + 1) then t.ackStall (i + 1) else t) s

theorem site_ackFirst (mask : SiteSet) (n y : Nat) (s : State) :
    (ackFirst mask n s).site y = (s.site y).stallAcked (decide (y ≤ n) && inSet mask y) := by
  induction n with
  | zero =>
    have hnone : (decide (y ≤ 0) && inSet mask y) = false := by
      by_cases hy : y = 0 <;> simp [hy, inSet]
    rw [hnone, SiteRecord.stallAcked_false]
    rfl
  | succ n ih =>
    have hstep : ackFirst mask (n + 1) s =
        if inSet mask (n + 1) then (ackFirst mask n s).ackStall (n + 1) else ackFirst mask n s := by
      rw [ackFirst, List.range_succ, List.foldl_append]
      rfl
    rw [hstep]
    by_cases hmask : inSet mask (n + 1) = true
    · have hnamed : (decide (y ≤ n) && inSet mask y || decide (y = n + 1)) = (decide (y ≤ n + 1) && inSet mask y) := by
        by_cases hy : y = n + 1
        · simp [hy, hmask]
        · have hle : y ≤ n ↔ y ≤ n + 1 := by omega
          simp [hy, hle]
      rw [if_pos hmask, State.site_ackStall, ih, SiteRecord.stallAcked_stallAcked, hnamed]
    · have hnamed : (decide (y ≤ n) && inSet mask y) = (decide (y ≤ n + 1) && inSet mask y) := by
        by_cases hy : y = n + 1
        · simp [hy, hmask]
        · have hle : y ≤ n ↔ y ≤ n + 1 := by omega
          simp [hle]
      rw [if_neg hmask, ih, hnamed]

theorem State.ackStalls_eq (mask : SiteSet) (s : State) :
    s.ackStalls mask = { s with monitor.sites := (s.ackStalls mask).monitor.sites } := by
  unfold State.ackStalls
  generalize List.range Config.siteCount = is
  induction is generalizing s with
  | nil => rfl
  | cons i is ih =>
    refine (ih _).trans ?_
    rw [List.foldl_cons]
    generalize (State.monitor (List.foldl _ _ is)).sites = sites
    dsimp only [State.ackStall]
    split
    · split <;> rfl
    · rfl

/-- The flags after an acknowledgement (R156 steps 2 and 3). -/
theorem hasClass_flagsAcked {flags enables : BitVec 8} (hclear : flags &&& ~~~enables = 0) (mask conditions : BitVec 8) (anyStall : Bool)
    (new : Option (BitVec 8)) (c : AlertClass) :
    let conditions' := setClass conditions .siteStall anyStall
    let masked := flagsAfterMask (followStall flags enables anyStall) mask conditions'
    hasClass (match new with | some en => flagsAfterEnables masked enables en conditions' | none => masked) c =
      if c = .siteStall then anyStall && hasClass (new.getD enables) c
      else
        let condition := hasClass conditionClasses c && hasClass conditions c
        let kept := hasClass flags c && !(hasClass mask c && !condition)
        hasClass (new.getD enables) c && (kept || (condition && !hasClass enables c)) := by
  have hdisabled : (hasClass flags c && !hasClass enables c) = false := by
    rw [← hasClass_not, ← hasClass_and, hclear]
    cases c <;> decide
  have hevent : hasClass eventClasses c = !hasClass conditionClasses c := by cases c <;> decide
  have hacked : hasClass ackedConditions c = (hasClass conditionClasses c && decide (c ≠ .siteStall)) := by cases c <;> decide
  intro conditions' masked
  have hmasked : hasClass masked c =
      if c = .siteStall then anyStall && hasClass enables c
      else hasClass flags c && !(hasClass mask c && !(hasClass conditionClasses c && hasClass conditions c)) := by
    simp only [masked, conditions', flagsAfterMask, followStall, hasClass_and, hasClass_or, hasClass_not, hasClass_setClass, hevent,
      hacked]
    by_cases hstall : c = .siteStall
    · subst hstall
      have hcondition : hasClass conditionClasses .siteStall = true := by decide
      simp [hcondition]
    · simp only [hstall, ne_eq, not_false_eq_true, decide_true, Bool.and_true]
      cases hasClass conditionClasses c <;> simp
  cases new with
  | none =>
    rw [hmasked]
    by_cases hstall : c = .siteStall
    · simp [hstall]
    · simp only [if_neg hstall, Option.getD_none]
      revert hdisabled
      generalize hasClass flags c = f, hasClass enables c = e, hasClass mask c = m, hasClass conditionClasses c = d,
        hasClass conditions c = v
      revert f e m d v
      decide
  | some en =>
    have hflags : hasClass (flagsAfterEnables masked enables en conditions') c =
        (hasClass masked c && hasClass en c ||
          hasClass en c && !hasClass enables c && hasClass conditions' c && hasClass conditionClasses c) := by
      simp only [flagsAfterEnables, hasClass_and, hasClass_or, hasClass_not]
    have hconditions : hasClass conditions' c = if c = .siteStall then anyStall else hasClass conditions c := hasClass_setClass ..
    refine hflags.trans ?_
    rw [hmasked, hconditions]
    by_cases hstall : c = .siteStall
    · subst hstall
      have hcondition : hasClass conditionClasses .siteStall = true := by decide
      simp only [if_true, Option.getD_some, hcondition]
      cases anyStall <;> cases hasClass enables .siteStall <;> cases hasClass en .siteStall <;> rfl
    · simp only [if_neg hstall, Option.getD_some]
      generalize hasClass flags c = f, hasClass enables c = e, hasClass mask c = m, hasClass conditionClasses c = d,
        hasClass conditions c = v, hasClass en c = n
      revert f e m d v n
      decide

/-- The class flags that an acknowledgement leaves; `anyStall` is whether a stall flag is still set. -/
def flagsAcked (s : State) (f : AckFields) (anyStall : Bool) : BitVec 8 :=
  let conditions := setClass s.mgmt.conditions .siteStall anyStall
  let masked := flagsAfterMask (followStall s.mgmt.flags s.mgmt.enables anyStall) f.classes conditions
  match f.enables with
  | some en => flagsAfterEnables masked s.mgmt.enables en conditions
  | none => masked

/-- What an acknowledgement leaves before its ALERT frames. -/
def acked (s : State) (f : AckFields) : State :=
  let sites := (s.ackStalls f.stalls).monitor.sites
  let anyStall := ({ s with monitor.sites := sites } : State).anyStall
  { s with
    monitor.sites := sites
    mgmt.flags := flagsAcked s f anyStall
    mgmt.conditions := setClass s.mgmt.conditions .siteStall anyStall
    mgmt.enables := f.enables.getD s.mgmt.enables
    mgmt.causes := if f.clearCauses then { powerOn := false, pin := false, command := false } else s.mgmt.causes }

theorem State.acknowledge_eq (f : AckFields) (s : State) : s.acknowledge f = alertsOffered s.mgmt.flags (acked s f) := by
  have hsites := s.ackStalls_eq f.stalls
  unfold State.acknowledge acked
  rw [State.raiseFrom_eq]
  generalize (s.ackStalls f.stalls).monitor.sites = sites at hsites
  rw [hsites]
  rfl

theorem hasClass_acked (h : DisabledFlagsClear s) (f : AckFields) (c : AlertClass) :
    hasClass (acked s f).mgmt.flags c =
      if c = .siteStall then (acked s f).anyStall && hasClass (f.enables.getD s.mgmt.enables) c
      else
        let condition := hasClass conditionClasses c && hasClass s.mgmt.conditions c
        let kept := hasClass s.mgmt.flags c && !(hasClass f.classes c && !condition)
        hasClass (f.enables.getD s.mgmt.enables) c && (kept || (condition && !hasClass s.mgmt.enables c)) :=
  hasClass_flagsAcked h f.classes s.mgmt.conditions (acked s f).anyStall f.enables c

theorem inSet_eq_false_of_gt {mask : SiteSet} {x : Nat} (hx : 40 < x) : inSet mask x = false := by
  have hbit : mask.getLsbD (x - 1) = false := BitVec.getLsbD_of_ge _ _ (by omega)
  rw [inSet, hbit, Bool.and_false]

/-- Each site's stall flag after an acknowledgement. -/
theorem site_acked (s : State) (f : AckFields) (x : Nat) : (acked s f).site x = (s.site x).stallAcked (inSet f.stalls x) := by
  have hsite : (acked s f).site x = (ackFirst f.stalls 40 s).site x := rfl
  have hnamed : (decide (x ≤ 40) && inSet f.stalls x) = inSet f.stalls x := by
    by_cases hx : x ≤ 40
    · rw [decide_eq_true hx, Bool.true_and]
    · rw [inSet_eq_false_of_gt (Nat.lt_of_not_le hx), Bool.and_false]
  rw [hsite, site_ackFirst, hnamed]

theorem exec_ackAlerts_of_front {f : AckFields} (hfront : Front s r rest) (hkind : r.kind = .ackAlerts) (hlength : r.body.length = 8)
    (hparse : parseAckFields r.body = some f) : exec .ackAlerts s = .next (answeredWith r .ok [] ((taken s rest).acknowledge f)) := by
  have hlengthOk : r.lengthOk = true := by rw [Request.lengthOk_iff, LengthRight, hkind]; exact hlength
  have hcode : r.codeOk = true := by rw [Request.codeOk, hkind]
  have hbatch : r.heldByBatch = false := by rw [Request.heldByBatch, hkind]
  have hlock : r.heldByLock = false := by rw [Request.heldByLock, hkind]
  have hcheck : (taken s rest).precheck r = none := by
    rw [State.precheck_of_ok hlengthOk hcode, hbatch, hlock, Bool.and_false, Bool.and_false]
    rfl
  have hcomplete := State.complete_of_passed (isFor := Request.isKind .ackAlerts)
    (effect := changing parseAckFields fun f t => (t.acknowledge f, .ok)) hfront (decide_eq_true hkind) hcheck
  refine congrArg Host.Outcome.next (hcomplete.trans ?_)
  simp only [changing, hparse]

/-- Settles O50. -/
theorem ackAlertsApplied : Obligations.AckAlertsApplied := by
  intro s r rest mask b0 b1 b2 b3 b4 fl en hfront hkind hbody hclear stalls
  let f : AckFields :=
    { classes := mask, stalls := stalls, clearCauses := fl.getLsbD 0, enables := if fl.getLsbD 1 then some en else none }
  have hparse : parseAckFields r.body = some f := by
    rw [hbody]
    simp only [parseAckFields, siteSetOf_eq]
    rfl
  have henables : (f.enables.getD s.mgmt.enables) = if fl.getLsbD 1 then en else s.mgmt.enables := by
    change (if fl.getLsbD 1 then some en else none).getD s.mgmt.enables = _
    split <;> rfl
  let v := acked (taken s rest) f
  refine ⟨v.monitor.sites, v.mgmt.flags, v.mgmt.conditions, ?_⟩
  intro t
  have ht : v = t := by
    have hv : v = { v with mgmt.enables := f.enables.getD s.mgmt.enables } := rfl
    refine hv.trans ?_
    rw [henables]
    rfl
  have hexec := exec_ackAlerts_of_front hfront hkind (by rw [hbody]; rfl) hparse
  rw [State.acknowledge_eq] at hexec
  refine ⟨?_, fun x => ?_, fun c => ⟨?_, ?_⟩⟩
  · rw [hexec, ← ht]
    rfl
  · rw [← ht]
    exact site_acked (taken s rest) f x
  · rw [← ht]
    exact hasClass_setClass ..
  · rw [← ht]
    exact hasClass_acked (s := taken s rest) hclear f c

end Sys2Proof.Machine

/-! IDENTIFY, STATUS and the READs (R24, R86, R104, R118, R143, R144, R157). -/

namespace Sys2Proof.Machine

variable {s t u : State} {r : Request} {rest : List Request}

/-! ### Requests that only read -/

/-- A request of a kind that nothing holds off passes the checks. -/
theorem State.precheck_of_never_held (hlength : r.lengthOk = true) (hcode : r.codeOk = true)
    (hkind : r.kind = .identify ∨ r.kind = .status ∨ r.kind = .read) (s : State) : s.precheck r = none := by
  have hbatch : r.heldByBatch = false := by
    obtain h | h | h := hkind <;> rw [Request.heldByBatch, h]
  have hlock : r.heldByLock = false := by
    obtain h | h | h := hkind <;> rw [Request.heldByLock, h]
  rw [State.precheck_of_ok hlength hcode, hbatch, hlock, Bool.and_false, Bool.and_false]
  rfl

/-- IDENTIFY or STATUS completed. -/
theorem State.complete_whole {answer : State → Answer} (k : RequestKind) (hk : k = .identify ∨ k = .status) (hfront : Front s r rest)
    (hkind : r.kind = k) (hbody : r.body = []) :
    s.complete (Request.isKind k) (fun _ t => (t, some (answer t))) =
      answeredWith r (answer (taken s rest)).1 (answer (taken s rest)).2 (taken s rest) := by
  subst hkind
  have hlength : r.lengthOk = true := by
    obtain h | h := hk <;> simp [Request.lengthOk, h, hbody]
  have hcode : r.codeOk = true := by
    obtain h | h := hk <;> simp [Request.codeOk, h]
  have hnever : r.kind = .identify ∨ r.kind = .status ∨ r.kind = .read := hk.imp_right .inl
  rw [State.complete_of_passed hfront (decide_eq_true rfl) (State.precheck_of_never_held hlength hcode hnever _)]

/-- A READ completed by the row of its table, with the operand that its body gives. -/
theorem State.complete_read {α : Type} {parse : List Byte → Option α} {answer : α → State → Answer} {code : Byte} {tail : List Byte}
    {a : α} (hfront : Front s r rest) (hkind : r.kind = .read) (hbody : r.body = code :: tail)
    (hlength : readLength code.toNat = some (tail.length + 1)) (hparse : parse r.body = some a) :
    s.complete (Request.isRow .read code.toNat) (reading parse answer) =
      answeredWith r (answer a (taken s rest)).1 (answer a (taken s rest)).2 (taken s rest) := by
  have hcode : r.code = some code.toNat := by rw [Request.code, hbody]; rfl
  have hfor : Request.isRow .read code.toNat r = true := by simp [Request.isRow, Request.isFor, hkind, hcode]
  have hlengthOk : r.lengthOk = true := by simp [Request.lengthOk, hkind, hcode, codeLength, hlength, hbody]
  have hcodeOk : r.codeOk = true := by simp [Request.codeOk, hkind, hcode, codeLength, hlength]
  rw [State.complete_of_passed hfront hfor (State.precheck_of_never_held hlengthOk hcodeOk (.inr (.inr hkind)) _)]
  simp only [reading, hparse]

/-- A READ by key. -/
theorem exec_readKey {c : Instr} {answer : Nat → State → Answer} {code k1 k0 : Byte} {res : Result} {body : List Byte}
    (hc : exec c s = .next (s.complete (Request.isRow .read code.toNat) (reading parseKey answer))) (hfront : Front s r rest)
    (hkind : r.kind = .read) (hbody : r.body = [code, k1, k0]) (hlength : readLength code.toNat = some 3)
    (hanswer : answer (k1.toNat * 256 + k0.toNat) (taken s rest) = (res, body)) :
    exec c s = .next (answeredWith r res body (taken s rest)) := by
  have hparse : parseKey r.body = some (k1.toNat * 256 + k0.toNat) := by rw [hbody, parseKey, numberOf_two]
  rw [hc, State.complete_read hfront hkind hbody hlength hparse, hanswer]

/-- A READ of the RADIO table. -/
theorem exec_readRadio {sel v2 v1 v0 : Byte} {res : Result} {body : List Byte} (hfront : Front s r rest) (hkind : r.kind = .read)
    (hbody : r.body = [6, sel, v2, v1, v0])
    (hanswer : (taken s rest).radioAnswer sel.toNat (word24 v2 v1 v0) = (res, body)) :
    exec .readRadio s = .next (answeredWith r res body (taken s rest)) := by
  have hparse : parseSelector r.body = some (sel.toNat, word24 v2 v1 v0) := by rw [hbody, parseSelector]
  have hcomplete := State.complete_read (answer := fun p t => State.radioAnswer p.1 p.2 t) hfront hkind hbody rfl hparse
  rw [hanswer] at hcomplete
  exact congrArg Host.Outcome.next hcomplete

/-! ### The bytes of the answers -/

theorem flagByte_two_eq (a b : Bool) : flagByte [a, b] = bitsByte [a, b] := flagByte_eq_bitsByte _ (by simp)

theorem State.statusAnswer_eq (s : State) :
    s.statusAnswer =
      (.ok,
        [s.mgmt.run.code,
          bitsByte
            [s.mgmt.lock, s.reach.floodOverride, s.classifier.sitePort.inSync, s.classifier.corePort.inSync, s.mgmt.batch.isSome],
          bitsByte [s.mgmt.causes.powerOn, s.mgmt.causes.pin, s.mgmt.causes.command], s.mgmt.flags, s.mgmt.enables] ++
          ((List.range 5).map fun i => bitsByte ((List.range 8).map fun j => (s.site (8 * i + j + 1)).stall)) ++
          bytes4 s.loc.epoch.toNat ++ bytes2 s.loc.entries.length ++ bytes2 s.evictable ++ [byte s.vote.calls.length] ++
          bytes2 s.poolFree ++ bytes2 s.egress.core.length ++
          (match s.mgmt.batch with
            | some b => bytes2 b.tag.toNat ++ [byte b.items, byte b.applied]
            | none => [0, 0, 0, 0])) := by
  have hstalls : siteSetBytes s.stallSet =
      (List.range 5).map fun i => bitsByte ((List.range 8).map fun j => (s.site (8 * i + j + 1)).stall) :=
    siteSetBytes_siteSet fun x => (s.site x).stall
  rw [State.statusAnswer, hstalls, flagByte_eq_bitsByte _ (by simp), ResetCauses.toByte, flagByte_three_eq]
  cases s.mgmt.batch <;> simp [bytes2, byte]

theorem State.siteAnswer_of_site {key : Nat} (hkey : 1 ≤ key ∧ key ≤ 40) (s : State) :
    s.siteAnswer key =
      (.ok,
        (s.site key).cfg.encode ++ [(s.site key).state.code] ++ bytes2 ((s.site key).sinceHeartbeat s.now) ++
          bytes2 (s.site key).interval ++
          [byte (s.site key).run, bitsByte [(s.site key).alarm, (s.site key).stall], byte (s.credits key)] ++ bytes2 (s.load key) ++
          [byte (s.controlLane key).length, byte (s.voiceLane key).length]) := by
  rw [State.siteAnswer, if_pos ((validSite_iff key).mpr hkey), ← flagByte_two_eq]

theorem State.siteAnswer_of_badKey {key : Nat} (hkey : ¬(1 ≤ key ∧ key ≤ 40)) (s : State) : s.siteAnswer key = (.badKey, []) :=
  if_neg fun hvalid => hkey ((validSite_iff key).mp hvalid)

theorem State.rangeAnswer_of_key {key : Nat} (hkey : key ≤ 15) (s : State) :
    s.rangeAnswer key =
      let f := s.loc.ranges.atD key ClassRange.default
      (.ok, bytes3 f.first.toNat ++ bytes3 f.last.toNat ++ [f.cls.code, if f.valid then 1 else 0]) := by
  rw [State.rangeAnswer, if_pos (show key < Config.rangeRecords from Nat.lt_succ_of_le hkey)]
  simp only [flagByte_one]

theorem State.rangeAnswer_of_badKey {key : Nat} (hkey : ¬key ≤ 15) (s : State) : s.rangeAnswer key = (.badKey, []) :=
  if_neg fun hlt => hkey (Nat.le_of_lt_succ hlt)

/-- The pinned sites of a row, as READ GROUP spells them. -/
theorem siteSetBytes_eq_sites (v : SiteSet) :
    siteSetBytes v = (List.range 5).map fun i => bitsByte ((List.range 8).map fun j => v.getLsbD (8 * i + j + 1 - 1)) :=
  siteSetBytes_eq_bits v

theorem State.groupAnswer_of_key {key : Nat} (hkey : key ≤ 255) (s : State) :
    s.groupAnswer key =
      (.ok,
        bytes2 (s.row key).talkgroup.toNat ++
          ((List.range 5).map fun i => bitsByte ((List.range 8).map fun j => (s.row key).pinned.getLsbD (8 * i + j + 1 - 1))) ++
          [bitsByte [(s.row key).flood, (s.row key).valid]] ++
          (List.range' 1 40).flatMap (fun x => bytes2 (s.memberCount key x)) ++ bytes2 (s.emergencyCount key)) := by
  have hsites : List.range' 1 40 = (List.range Config.siteCount).map (· + 1) := by decide
  rw [State.groupAnswer, if_pos (show key < Config.groupRows from Nat.lt_succ_of_le hkey), GroupRow.encode, siteSetBytes_eq_sites,
    flagByte_two_eq, hsites, List.flatMap_map]

theorem State.groupAnswer_of_badKey {key : Nat} (hkey : ¬key ≤ 255) (s : State) : s.groupAnswer key = (.badKey, []) :=
  if_neg fun hlt => hkey (Nat.le_of_lt_succ hlt)

/-- The body of a CALL read (table 9-9). -/
theorem CallRecord.encode_eq (c : CallRecord) (now : Nat) :
    c.encode now =
      bytes3 c.radio.toNat ++ [c.tag, c.callType.code] ++ bytes3 c.dest.toNat ++
        [c.seq, bitsByte [c.isOpen, c.best.isSome, c.endSeen, c.emergencySeen]] ++
        (if c.isOpen then bytes2 (c.deadline - now) else [0, 0]) ++
        (match c.best with | some b => [byte b.site, byte b.quality] | none => [0, 0]) ++ [byte c.copies] ++
        bytes2 (c.hangDeadline - now) := by
  have htime : bytes2 (if c.isOpen then c.deadline - now else 0) = if c.isOpen then bytes2 (c.deadline - now) else [0, 0] := by
    split <;> rfl
  rw [CallRecord.encode, htime, flagByte_eq_bitsByte _ (by simp)] <;> rfl

theorem State.callAnswer_of_found {key : Nat} {c : CallRecord} (hkey : key ≤ 47) (h : s.vote.calls.at? key = some c) :
    s.callAnswer key = (.ok, c.encode s.now) := by
  rw [State.callAnswer, if_pos (show key < Config.callRecords from Nat.lt_succ_of_le hkey), h]

theorem State.callAnswer_of_none {key : Nat} (hkey : key ≤ 47) (h : s.vote.calls.at? key = none) :
    s.callAnswer key = (.notFound, []) := by
  rw [State.callAnswer, if_pos (show key < Config.callRecords from Nat.lt_succ_of_le hkey), h]

theorem State.callAnswer_of_badKey {key : Nat} (hkey : ¬key ≤ 47) (s : State) : s.callAnswer key = (.badKey, []) :=
  if_neg fun hlt => hkey (Nat.le_of_lt_succ hlt)

/-- How many counters the set of a key has (R157). -/
def setSize (key : Nat) : Nat := if key = 0 then 17 else if key ≤ 40 then 7 else 10

theorem setSize_cases (key : Nat) : setSize key = 17 ∨ setSize key = 7 ∨ setSize key = 10 := by
  unfold setSize
  split
  · exact .inl rfl
  · split
    · exact .inr (.inl rfl)
    · exact .inr (.inr rfl)

theorem counterSetSize_of_key {key : Nat} (hkey : key ≤ 42) : counterSetSize key = some (setSize key) := by
  unfold counterSetSize setSize
  split
  · rfl
  · split <;> rfl

theorem counterSetSize_of_badKey {key : Nat} (hkey : ¬key ≤ 42) : counterSetSize key = none := by
  rw [counterSetSize, if_neg (by omega), if_neg (by omega), if_neg hkey]

theorem State.countersAnswer_of_key {key : Nat} (hkey : key ≤ 42) (s : State) :
    s.countersAnswer key =
      let n := setSize key
      let counter (i : Nat) : Counter := s.mgmt.counters.atD (key * 32 + i) Counter.zero
      (.ok,
        (List.range n).flatMap (fun i => bytes4 (counter i).value.toNat) ++
          (List.range ((n + 7) / 8)).map fun j =>
            bitsByte ((List.range 8).map fun i => decide (8 * j + i < n) && (counter (8 * j + i)).wrapped)) := by
  rw [State.countersAnswer, counterSetSize_of_key hkey]
  simp only [counterSet, List.flatMap_map, List.map_map]
  rw [← wrapBytes_eq (fun i => (s.mgmt.counters.atD (key * 32 + i) Counter.zero).wrapped) _ (setSize_cases key)]
  rfl

theorem State.countersAnswer_of_badKey {key : Nat} (hkey : ¬key ≤ 42) (s : State) : s.countersAnswer key = (.badKey, []) := by
  rw [State.countersAnswer, counterSetSize_of_badKey hkey]

/-- The body of a RADIO read (table 9-9). -/
theorem State.radioBody_eq (k : Nat) (e : Entry) (s : State) :
    s.radioBody k e =
      bytes2 k ++ bytes3 e.radio.toNat ++ [e.cls.code, e.state.code] ++ bytes2 e.talkgroup.toNat ++
        [byte e.serving, e.number, bitsByte [e.handover.isSome, e.failed.isSome, e.emergency]] ++
        (match e.handover with
          | some h => [byte h.target, if h.origin = .forced then 1 else 0, byte h.retries, byte h.age, if h.accepted then 1 else 0]
          | none => [0, 0, 0, 0, 0]) ++
        [byte e.dwell, byte e.shadow] ++ (match e.failed with | some f => [byte f.site, byte f.remaining] | none => [0, 0]) ++
        bytes4 s.loc.epoch.toNat ++ [byte e.cands.length] ++ e.cands.flatMap (Candidate.encode (s.policy e) s.loc.epoch) := by
  have horigin : ∀ o : Origin, o.code = if o = .forced then 1 else 0 := by
    intro o
    cases o <;> rfl
  simp only [State.radioBody, flagByte_one, flagByte_three_eq, horigin] <;> rfl

theorem State.radioAnswer_of_badId {value : BitVec 24} (h : value = 0 ∨ value = 0xFFFFFF) (s : State) :
    s.radioAnswer 0 value = (.badKey, []) := by
  rw [State.radioAnswer, (validRadio_eq_false_iff value).mpr h]
  rfl

theorem State.radioAnswer_of_id {w : RadioId} {k : Nat} {e : Entry} (h0 : w ≠ 0) (h1 : w ≠ 0xFFFFFF) (h : s.lookup w = some (k, e)) :
    s.radioAnswer 0 w = (.ok, s.radioBody k e) := by
  rw [State.radioAnswer, validRadio_of_ne h0 h1, h]
  rfl

theorem State.radioAnswer_of_unknown {w : RadioId} (h0 : w ≠ 0) (h1 : w ≠ 0xFFFFFF) (h : s.lookup w = none) :
    s.radioAnswer 0 w = (.notFound, []) := by
  rw [State.radioAnswer, validRadio_of_ne h0 h1, h]
  rfl

theorem State.radioAnswer_of_slot {w : BitVec 24} {e : Entry} (hslot : w.toNat ≤ 2047) (h : s.entry w.toNat = some e) :
    s.radioAnswer 1 w = (.ok, s.radioBody w.toNat e) := by
  refine (if_pos (show w.toNat < Config.radioSlots from Nat.lt_succ_of_le hslot)).trans ?_
  rw [h]

theorem State.radioAnswer_of_free {w : BitVec 24} (hslot : w.toNat ≤ 2047) (h : s.entry w.toNat = none) :
    s.radioAnswer 1 w = (.notFound, []) := by
  refine (if_pos (show w.toNat < Config.radioSlots from Nat.lt_succ_of_le hslot)).trans ?_
  rw [h]

theorem State.radioAnswer_of_badSlot {value : BitVec 24} (h : ¬value.toNat ≤ 2047) (s : State) :
    s.radioAnswer 1 value = (.badKey, []) :=
  if_neg fun hlt => h (Nat.le_of_lt_succ hlt)

theorem State.radioAnswer_of_badSelector {sel : Nat} (h : 2 ≤ sel) (value : BitVec 24) (s : State) :
    s.radioAnswer sel value = (.badKey, []) := by
  rw [State.radioAnswer, if_neg (by omega), if_neg (by omega)]

end Sys2Proof.Machine

/-! What the READs answer (table 9-9). -/

namespace Sys2Proof.Machine

variable {s : State} {r : Request} {rest : List Request}

/-- Settles O43. -/
theorem readsAnswered : Obligations.ReadsAnswered := by
  intro s r rest hfront answered number2 number3 number4 siteBits runCode siteCode classCode entryCode callCode
  refine ⟨fun hkind hbody => ?_, fun hkind hbody => ?_, fun k1 k0 => ?_, fun sel v2 v1 v0 hkind hbody => ?_⟩
  · exact congrArg Host.Outcome.next (State.complete_whole (answer := State.identity) .identify (.inl rfl) hfront hkind hbody)
  · have hcomplete := State.complete_whole (answer := State.statusAnswer) .status (.inr rfl) hfront hkind hbody
    rw [State.statusAnswer_eq] at hcomplete
    exact congrArg Host.Outcome.next hcomplete
  · intro key
    refine ⟨fun hkind hbody => ?_, fun hkind hbody => ?_, fun hkind hbody => ?_, fun hkind hbody => ?_, fun hkind hbody => ?_,
      fun hkind hbody => ?_, fun hkind hbody => ?_⟩
    · split
      next hkey => exact exec_readKey rfl hfront hkind hbody rfl (State.siteAnswer_of_site hkey _)
      next hkey => exact exec_readKey rfl hfront hkind hbody rfl (State.siteAnswer_of_badKey hkey _)
    · intro policy
      have hclass : ∀ answer, (taken s rest).classAnswer key = answer →
          exec .readClass s = .next (answeredWith r answer.1 answer.2 (taken s rest)) :=
        fun answer hanswer => exec_readKey rfl hfront hkind hbody rfl hanswer
      generalize key = n at hclass
      match n with
      | 0 | 1 | 2 | 3 => exact hclass _ rfl
      | n + 4 => exact hclass _ rfl
    · split
      next hkey => exact exec_readKey rfl hfront hkind hbody rfl (State.rangeAnswer_of_key hkey _)
      next hkey => exact exec_readKey rfl hfront hkind hbody rfl (State.rangeAnswer_of_badKey hkey _)
    · split
      next hkey => exact exec_readKey rfl hfront hkind hbody rfl (State.groupAnswer_of_key hkey _)
      next hkey => exact exec_readKey rfl hfront hkind hbody rfl (State.groupAnswer_of_badKey hkey _)
    · split
      next hkey => exact exec_readKey rfl hfront hkind hbody rfl (if_pos hkey)
      next hkey => exact exec_readKey rfl hfront hkind hbody rfl (if_neg hkey)
    · split
      next hkey =>
        split
        next c hcall =>
          exact exec_readKey rfl hfront hkind hbody rfl
            ((State.callAnswer_of_found (s := taken s rest) hkey hcall).trans (congrArg _ (c.encode_eq _)))
        next hcall => exact exec_readKey rfl hfront hkind hbody rfl (State.callAnswer_of_none (s := taken s rest) hkey hcall)
      next hkey => exact exec_readKey rfl hfront hkind hbody rfl (State.callAnswer_of_badKey hkey _)
    · split
      next hkey => exact exec_readKey rfl hfront hkind hbody rfl (State.countersAnswer_of_key hkey _)
      next hkey => exact exec_readKey rfl hfront hkind hbody rfl (State.countersAnswer_of_badKey hkey _)
  · intro value epochs entry
    have hword : word24 v2 v1 v0 = BitVec.ofNat 24 value := word24_eq v2 v1 v0
    have hvalue : (word24 v2 v1 v0).toNat = value := word24_toNat v2 v1 v0
    have hzero : word24 v2 v1 v0 = 0 ↔ value = 0 := word24_eq_iff v2 v1 v0 0
    have hlast : word24 v2 v1 v0 = 0xFFFFFF ↔ value = 0xFFFFFF := word24_eq_iff v2 v1 v0 0xFFFFFF
    have hentry : ∀ k e, (taken s rest).radioAnswer sel.toNat (word24 v2 v1 v0) = (.ok, (taken s rest).radioBody k e) →
        exec .readRadio s = entry k e :=
      fun k e hanswer => exec_readRadio hfront hkind hbody (hanswer.trans (congrArg _ (State.radioBody_eq k e _)))
    refine ⟨fun hsel hbad => ?_, fun hsel h0 h1 => ?_, fun hsel => ?_, fun hsel => ?_⟩
    · subst hsel
      exact exec_readRadio hfront hkind hbody (State.radioAnswer_of_badId (hbad.imp hzero.mpr hlast.mpr) _)
    · subst hsel
      rw [← hword]
      split
      next k e hfound =>
        exact hentry k e (State.radioAnswer_of_id (s := taken s rest) ((not_congr hzero).mpr h0) ((not_congr hlast).mpr h1) hfound)
      next hfound =>
        exact exec_readRadio hfront hkind hbody
          (State.radioAnswer_of_unknown (s := taken s rest) ((not_congr hzero).mpr h0) ((not_congr hlast).mpr h1) hfound)
    · subst hsel
      rw [← hvalue]
      split
      next hslot =>
        split
        next e hfound => exact hentry _ e (State.radioAnswer_of_slot (s := taken s rest) hslot hfound)
        next hfound => exact exec_readRadio hfront hkind hbody (State.radioAnswer_of_free (s := taken s rest) hslot hfound)
      next hslot => exact exec_readRadio hfront hkind hbody (State.radioAnswer_of_badSlot hslot _)
    · exact exec_readRadio hfront hkind hbody (State.radioAnswer_of_badSelector hsel _ _)

end Sys2Proof.Machine
